-- ==== Sys2Proof/Word.lean ====
section
/-! DEFINITION. The two word types of the engine (00_scope.md R7). -/

namespace Sys2Proof

/-- Bus data and the registers A, X, Y, SP and P: 8 bits (R7). -/
abbrev Byte := BitVec 8

/-- Bus addresses and PC: 16 bits (R7). -/
abbrev Word := BitVec 16

end Sys2Proof
end

