-- ==== Sys2Proof/Config.lean ====
section
/-! DEFINITION. What an implementation fixes: the value sets of the behaviour parameters of
00_scope.md R8 and R11, the spec's defaults for them, and the one free value of the model. The
parameters' values for a machine stand in `Machine.Params`, a field of the state. -/

namespace Sys2Proof

/-- `P_SKIP_RULE` (R11, 40_engine.md R106): how the loop decides that an instruction did not itself
modify PC. -/
inductive SkipRule where
  | valueCompare
  | classBased
deriving DecidableEq, Repr

/-- `P_ROT_Z` (R11, 44_shift_rotate.md R200): which ROL and ROR forms write the Zero flag. -/
inductive RotZ where
  | never
  | accOnly
  | always
deriving DecidableEq, Repr

/-- The two accepted lengths of the PRG-ROM image `P_PRG` (R8): 0x4000 and 0x8000 bytes. -/
inductive PrgSize where
  | k16
  | k32
deriving DecidableEq, Repr

/-- The spec's default of `P_SKIP_RULE` (R11). -/
def Config.defaultSkipRule : SkipRule := .valueCompare

/-- The spec's default of `P_ROT_Z` (R11). -/
def Config.defaultRotZ : RotZ := .never

/-- DESIGN CHOICE (log 8): `P_LOAD_ADDR` of the state after reset. The spec leaves it open (R10) and
uses 0x0600 in its own vectors. -/
def Config.defaultLoadAddr : Word := 0x0600

/-- The free value (log 3): what the registers and the work RAM hold in a Faulted state, which
60_exceptions.md R310 leaves unspecified. The first argument numbers the draw, the second the byte:
0 to 0x7FF are the bytes of RAM, 0x800 on the registers. -/
opaque Config.faultedContents : Nat → Nat → Byte

end Sys2Proof
end

