-- ==== Sys2Proof/Syntax.lean ====
section
/-! DEFINITION. The instruction set as data: mnemonics, addressing modes, byte layouts, the opcode
entry of 30_encoding.md R81, and `Instr`, one constructor per row of the opcode table of R84. -/

namespace Sys2Proof

/-- The closed set of addressing modes (R81). -/
inductive Mode where
  | immediate | zeroPage | zeroPageX | zeroPageY | absolute | absoluteX | absoluteY
  | indirectX | indirectY | noneAddressing
deriving DecidableEq, Repr

/-- The byte layouts of R82. -/
inductive Format where
  | implied | accumulator | immediate | zeroPage | zeroPageX | zeroPageY
  | absolute | absoluteX | absoluteY | indirectX | indirectY | relative | absTarget | indirect
deriving DecidableEq, Repr

/-- How many operand bytes follow the opcode byte (R80, R82). -/
inductive OperandSize where
  | zero | one | two
deriving DecidableEq, Repr

/-- The 56 mnemonics (R84). -/
inductive Mnemonic where
  | lda | ldx | ldy | sta | stx | sty | tax | tay | txa | tya | tsx | txs | inx | iny
  | dex | dey | inc | dec | asl | lsr | rol | ror | and | eor | ora | adc | sbc | cmp
  | cpx | cpy | bit | bcc | bcs | beq | bne | bpl | bmi | bvc | bvs | jmp | jsr | rts
  | pha | pla | php | plp | clc | sec | cli | sei | cld | sed | clv | rti | nop | brk
deriving DecidableEq, Repr

/-- A mnemonic as the table of R84 writes it. -/
def Mnemonic.name : Mnemonic → String
  | .lda => "LDA" | .ldx => "LDX" | .ldy => "LDY" | .sta => "STA" | .stx => "STX" | .sty => "STY"
  | .tax => "TAX" | .tay => "TAY" | .txa => "TXA" | .tya => "TYA" | .tsx => "TSX" | .txs => "TXS"
  | .inx => "INX" | .iny => "INY" | .dex => "DEX" | .dey => "DEY" | .inc => "INC" | .dec => "DEC"
  | .asl => "ASL" | .lsr => "LSR" | .rol => "ROL" | .ror => "ROR" | .and => "AND" | .eor => "EOR"
  | .ora => "ORA" | .adc => "ADC" | .sbc => "SBC" | .cmp => "CMP" | .cpx => "CPX" | .cpy => "CPY"
  | .bit => "BIT" | .bcc => "BCC" | .bcs => "BCS" | .beq => "BEQ" | .bne => "BNE" | .bpl => "BPL"
  | .bmi => "BMI" | .bvc => "BVC" | .bvs => "BVS" | .jmp => "JMP" | .jsr => "JSR" | .rts => "RTS"
  | .pha => "PHA" | .pla => "PLA" | .php => "PHP" | .plp => "PLP" | .clc => "CLC" | .sec => "SEC"
  | .cli => "CLI" | .sei => "SEI" | .cld => "CLD" | .sed => "SED" | .clv => "CLV" | .rti => "RTI"
  | .nop => "NOP" | .brk => "BRK"

/-- The 56 mnemonics, in the order of the type. -/
def Mnemonic.all : List Mnemonic :=
  [.lda, .ldx, .ldy, .sta, .stx, .sty, .tax, .tay, .txa, .tya, .tsx, .txs, .inx, .iny, .dex, .dey,
    .inc, .dec, .asl, .lsr, .rol, .ror, .and, .eor, .ora, .adc, .sbc, .cmp] ++
  [.cpx, .cpy, .bit, .bcc, .bcs, .beq, .bne, .bpl, .bmi, .bvc, .bvs, .jmp, .jsr, .rts, .pha, .pla,
    .php, .plp, .clc, .sec, .cli, .sei, .cld, .sed, .clv, .rti, .nop, .brk]

/-- The mnemonic of R84 that a string is, if it is one. -/
def Mnemonic.ofName (name : String) : Option Mnemonic := Mnemonic.all.find? fun m => m.name == name

/-- An opcode entry (R81): the record {code, mnemonic, mode, length, cycles}, its mnemonic any string.
`cycles` is read by no rule (70_reset_and_hazards.md R363; log 14). -/
structure OpcodeEntry where
  code     : Byte
  mnemonic : String
  mode     : Mode
  length   : Nat
  cycles   : Int
deriving DecidableEq, Repr

/-- One constructor per row of the opcode table (R84). A row has no operand field: the opcode byte
alone selects it (R80, R88), and its handler reads the operand bytes through the bus while it
executes (00_scope.md R17; log 1). -/
inductive Instr where
  | ldaIndX | ldaZp | ldaImm | ldaAbs | ldaIndY | ldaZpX | ldaAbsY | ldaAbsX
  | ldxImm | ldxZp | ldxAbs | ldxZpY | ldxAbsY
  | ldyImm | ldyZp | ldyAbs | ldyZpX | ldyAbsX
  | staIndX | staZp | staAbs | staIndY | staZpX | staAbsY | staAbsX
  | stxZp | stxAbs | stxZpY
  | styZp | styAbs | styZpX
  | tax
  | tay
  | txa
  | tya
  | tsx
  | txs
  | inx
  | iny
  | dex
  | dey
  | incZp | incAbs | incZpX | incAbsX
  | decZp | decAbs | decZpX | decAbsX
  | aslZp | aslAcc | aslAbs | aslZpX | aslAbsX
  | lsrZp | lsrAcc | lsrAbs | lsrZpX | lsrAbsX
  | rolZp | rolAcc | rolAbs | rolZpX | rolAbsX
  | rorZp | rorAcc | rorAbs | rorZpX | rorAbsX
  | andIndX | andZp | andImm | andAbs | andIndY | andZpX | andAbsY | andAbsX
  | eorIndX | eorZp | eorImm | eorAbs | eorIndY | eorZpX | eorAbsY | eorAbsX
  | oraIndX | oraZp | oraImm | oraAbs | oraIndY | oraZpX | oraAbsY | oraAbsX
  | adcIndX | adcZp | adcImm | adcAbs | adcIndY | adcZpX | adcAbsY | adcAbsX
  | sbcIndX | sbcZp | sbcImm | sbcAbs | sbcIndY | sbcZpX | sbcAbsY | sbcAbsX
  | cmpIndX | cmpZp | cmpImm | cmpAbs | cmpIndY | cmpZpX | cmpAbsY | cmpAbsX
  | cpxImm | cpxZp | cpxAbs
  | cpyImm | cpyZp | cpyAbs
  | bitZp | bitAbs
  | bcc
  | bcs
  | beq
  | bne
  | bpl
  | bmi
  | bvc
  | bvs
  | jmpAbs | jmpInd
  | jsr
  | rts
  | pha
  | pla
  | php
  | plp
  | clc
  | sec
  | cli
  | sei
  | cld
  | sed
  | clv
  | rti
  | nop
  | brk
deriving DecidableEq, Repr

/-- The operand bytes of a whole instruction: none, one byte, or the 16-bit value of two bytes (R83). -/
inductive Operand where
  | none
  | byte (v : Byte)
  | word (v : Word)
deriving DecidableEq, Repr

/-- A whole instruction as it lies in memory: a row and its operand bytes (R82). -/
structure AsmInstr where
  instr   : Instr
  operand : Operand
deriving DecidableEq, Repr

end Sys2Proof
end

