-- ==== Sys2Proof/Decode.lean ====
section
/-! DEFINITION. The opcode table of 30_encoding.md R84 with the layouts of R82 and the lengths of R85,
the decoder, total on any bytes and rejecting by name, and the encoder. The rows are general knowledge by the
spec's own mark (PRESUMED, log 11). -/

namespace Sys2Proof

/-- The addressing mode of a layout (R82). -/
def Format.mode : Format → Mode
  | .immediate => .immediate
  | .zeroPage => .zeroPage
  | .zeroPageX => .zeroPageX
  | .zeroPageY => .zeroPageY
  | .absolute => .absolute
  | .absoluteX => .absoluteX
  | .absoluteY => .absoluteY
  | .indirectX => .indirectX
  | .indirectY => .indirectY
  | .implied | .accumulator | .relative | .absTarget | .indirect => .noneAddressing

/-- The operand bytes of a layout (R82, R85). -/
def Format.operandSize : Format → OperandSize
  | .implied | .accumulator => .zero
  | .immediate | .zeroPage | .zeroPageX | .zeroPageY | .indirectX | .indirectY | .relative => .one
  | .absolute | .absoluteX | .absoluteY | .absTarget | .indirect => .two

/-- The instruction's length: the opcode byte and its operand bytes (R80, R85). -/
def OperandSize.length : OperandSize → Nat
  | .zero => 1
  | .one => 2
  | .two => 3

/-- A row of the opcode table as R84 gives it: code, mnemonic and layout, with the documented base
cycle count, which no rule reads (R363). -/
def Instr.row : Instr → Byte × Mnemonic × Format × Nat
  | .ldaIndX => (0xA1, .lda, .indirectX, 6)
  | .ldaZp => (0xA5, .lda, .zeroPage, 3)
  | .ldaImm => (0xA9, .lda, .immediate, 2)
  | .ldaAbs => (0xAD, .lda, .absolute, 4)
  | .ldaIndY => (0xB1, .lda, .indirectY, 5)
  | .ldaZpX => (0xB5, .lda, .zeroPageX, 4)
  | .ldaAbsY => (0xB9, .lda, .absoluteY, 4)
  | .ldaAbsX => (0xBD, .lda, .absoluteX, 4)
  | .ldxImm => (0xA2, .ldx, .immediate, 2)
  | .ldxZp => (0xA6, .ldx, .zeroPage, 3)
  | .ldxAbs => (0xAE, .ldx, .absolute, 4)
  | .ldxZpY => (0xB6, .ldx, .zeroPageY, 4)
  | .ldxAbsY => (0xBE, .ldx, .absoluteY, 4)
  | .ldyImm => (0xA0, .ldy, .immediate, 2)
  | .ldyZp => (0xA4, .ldy, .zeroPage, 3)
  | .ldyAbs => (0xAC, .ldy, .absolute, 4)
  | .ldyZpX => (0xB4, .ldy, .zeroPageX, 4)
  | .ldyAbsX => (0xBC, .ldy, .absoluteX, 4)
  | .staIndX => (0x81, .sta, .indirectX, 6)
  | .staZp => (0x85, .sta, .zeroPage, 3)
  | .staAbs => (0x8D, .sta, .absolute, 4)
  | .staIndY => (0x91, .sta, .indirectY, 6)
  | .staZpX => (0x95, .sta, .zeroPageX, 4)
  | .staAbsY => (0x99, .sta, .absoluteY, 5)
  | .staAbsX => (0x9D, .sta, .absoluteX, 5)
  | .stxZp => (0x86, .stx, .zeroPage, 3)
  | .stxAbs => (0x8E, .stx, .absolute, 4)
  | .stxZpY => (0x96, .stx, .zeroPageY, 4)
  | .styZp => (0x84, .sty, .zeroPage, 3)
  | .styAbs => (0x8C, .sty, .absolute, 4)
  | .styZpX => (0x94, .sty, .zeroPageX, 4)
  | .tax => (0xAA, .tax, .implied, 2)
  | .tay => (0xA8, .tay, .implied, 2)
  | .txa => (0x8A, .txa, .implied, 2)
  | .tya => (0x98, .tya, .implied, 2)
  | .tsx => (0xBA, .tsx, .implied, 2)
  | .txs => (0x9A, .txs, .implied, 2)
  | .inx => (0xE8, .inx, .implied, 2)
  | .iny => (0xC8, .iny, .implied, 2)
  | .dex => (0xCA, .dex, .implied, 2)
  | .dey => (0x88, .dey, .implied, 2)
  | .incZp => (0xE6, .inc, .zeroPage, 5)
  | .incAbs => (0xEE, .inc, .absolute, 6)
  | .incZpX => (0xF6, .inc, .zeroPageX, 6)
  | .incAbsX => (0xFE, .inc, .absoluteX, 7)
  | .decZp => (0xC6, .dec, .zeroPage, 5)
  | .decAbs => (0xCE, .dec, .absolute, 6)
  | .decZpX => (0xD6, .dec, .zeroPageX, 6)
  | .decAbsX => (0xDE, .dec, .absoluteX, 7)
  | .aslZp => (0x06, .asl, .zeroPage, 5)
  | .aslAcc => (0x0A, .asl, .accumulator, 2)
  | .aslAbs => (0x0E, .asl, .absolute, 6)
  | .aslZpX => (0x16, .asl, .zeroPageX, 6)
  | .aslAbsX => (0x1E, .asl, .absoluteX, 7)
  | .lsrZp => (0x46, .lsr, .zeroPage, 5)
  | .lsrAcc => (0x4A, .lsr, .accumulator, 2)
  | .lsrAbs => (0x4E, .lsr, .absolute, 6)
  | .lsrZpX => (0x56, .lsr, .zeroPageX, 6)
  | .lsrAbsX => (0x5E, .lsr, .absoluteX, 7)
  | .rolZp => (0x26, .rol, .zeroPage, 5)
  | .rolAcc => (0x2A, .rol, .accumulator, 2)
  | .rolAbs => (0x2E, .rol, .absolute, 6)
  | .rolZpX => (0x36, .rol, .zeroPageX, 6)
  | .rolAbsX => (0x3E, .rol, .absoluteX, 7)
  | .rorZp => (0x66, .ror, .zeroPage, 5)
  | .rorAcc => (0x6A, .ror, .accumulator, 2)
  | .rorAbs => (0x6E, .ror, .absolute, 6)
  | .rorZpX => (0x76, .ror, .zeroPageX, 6)
  | .rorAbsX => (0x7E, .ror, .absoluteX, 7)
  | .andIndX => (0x21, .and, .indirectX, 6)
  | .andZp => (0x25, .and, .zeroPage, 3)
  | .andImm => (0x29, .and, .immediate, 2)
  | .andAbs => (0x2D, .and, .absolute, 4)
  | .andIndY => (0x31, .and, .indirectY, 5)
  | .andZpX => (0x35, .and, .zeroPageX, 4)
  | .andAbsY => (0x39, .and, .absoluteY, 4)
  | .andAbsX => (0x3D, .and, .absoluteX, 4)
  | .eorIndX => (0x41, .eor, .indirectX, 6)
  | .eorZp => (0x45, .eor, .zeroPage, 3)
  | .eorImm => (0x49, .eor, .immediate, 2)
  | .eorAbs => (0x4D, .eor, .absolute, 4)
  | .eorIndY => (0x51, .eor, .indirectY, 5)
  | .eorZpX => (0x55, .eor, .zeroPageX, 4)
  | .eorAbsY => (0x59, .eor, .absoluteY, 4)
  | .eorAbsX => (0x5D, .eor, .absoluteX, 4)
  | .oraIndX => (0x01, .ora, .indirectX, 6)
  | .oraZp => (0x05, .ora, .zeroPage, 3)
  | .oraImm => (0x09, .ora, .immediate, 2)
  | .oraAbs => (0x0D, .ora, .absolute, 4)
  | .oraIndY => (0x11, .ora, .indirectY, 5)
  | .oraZpX => (0x15, .ora, .zeroPageX, 4)
  | .oraAbsY => (0x19, .ora, .absoluteY, 4)
  | .oraAbsX => (0x1D, .ora, .absoluteX, 4)
  | .adcIndX => (0x61, .adc, .indirectX, 6)
  | .adcZp => (0x65, .adc, .zeroPage, 3)
  | .adcImm => (0x69, .adc, .immediate, 2)
  | .adcAbs => (0x6D, .adc, .absolute, 4)
  | .adcIndY => (0x71, .adc, .indirectY, 5)
  | .adcZpX => (0x75, .adc, .zeroPageX, 4)
  | .adcAbsY => (0x79, .adc, .absoluteY, 4)
  | .adcAbsX => (0x7D, .adc, .absoluteX, 4)
  | .sbcIndX => (0xE1, .sbc, .indirectX, 6)
  | .sbcZp => (0xE5, .sbc, .zeroPage, 3)
  | .sbcImm => (0xE9, .sbc, .immediate, 2)
  | .sbcAbs => (0xED, .sbc, .absolute, 4)
  | .sbcIndY => (0xF1, .sbc, .indirectY, 5)
  | .sbcZpX => (0xF5, .sbc, .zeroPageX, 4)
  | .sbcAbsY => (0xF9, .sbc, .absoluteY, 4)
  | .sbcAbsX => (0xFD, .sbc, .absoluteX, 4)
  | .cmpIndX => (0xC1, .cmp, .indirectX, 6)
  | .cmpZp => (0xC5, .cmp, .zeroPage, 3)
  | .cmpImm => (0xC9, .cmp, .immediate, 2)
  | .cmpAbs => (0xCD, .cmp, .absolute, 4)
  | .cmpIndY => (0xD1, .cmp, .indirectY, 5)
  | .cmpZpX => (0xD5, .cmp, .zeroPageX, 4)
  | .cmpAbsY => (0xD9, .cmp, .absoluteY, 4)
  | .cmpAbsX => (0xDD, .cmp, .absoluteX, 4)
  | .cpxImm => (0xE0, .cpx, .immediate, 2)
  | .cpxZp => (0xE4, .cpx, .zeroPage, 3)
  | .cpxAbs => (0xEC, .cpx, .absolute, 4)
  | .cpyImm => (0xC0, .cpy, .immediate, 2)
  | .cpyZp => (0xC4, .cpy, .zeroPage, 3)
  | .cpyAbs => (0xCC, .cpy, .absolute, 4)
  | .bitZp => (0x24, .bit, .zeroPage, 3)
  | .bitAbs => (0x2C, .bit, .absolute, 4)
  | .bcc => (0x90, .bcc, .relative, 2)
  | .bcs => (0xB0, .bcs, .relative, 2)
  | .beq => (0xF0, .beq, .relative, 2)
  | .bne => (0xD0, .bne, .relative, 2)
  | .bpl => (0x10, .bpl, .relative, 2)
  | .bmi => (0x30, .bmi, .relative, 2)
  | .bvc => (0x50, .bvc, .relative, 2)
  | .bvs => (0x70, .bvs, .relative, 2)
  | .jmpAbs => (0x4C, .jmp, .absTarget, 3)
  | .jmpInd => (0x6C, .jmp, .indirect, 5)
  | .jsr => (0x20, .jsr, .absTarget, 6)
  | .rts => (0x60, .rts, .implied, 6)
  | .pha => (0x48, .pha, .implied, 3)
  | .pla => (0x68, .pla, .implied, 4)
  | .php => (0x08, .php, .implied, 3)
  | .plp => (0x28, .plp, .implied, 4)
  | .clc => (0x18, .clc, .implied, 2)
  | .sec => (0x38, .sec, .implied, 2)
  | .cli => (0x58, .cli, .implied, 2)
  | .sei => (0x78, .sei, .implied, 2)
  | .cld => (0xD8, .cld, .implied, 2)
  | .sed => (0xF8, .sed, .implied, 2)
  | .clv => (0xB8, .clv, .implied, 2)
  | .rti => (0x40, .rti, .implied, 6)
  | .nop => (0xEA, .nop, .implied, 2)
  | .brk => (0x00, .brk, .implied, 7)

/-- The layout of a row (R82). -/
def Instr.format (i : Instr) : Format := i.row.2.2.1

/-- The mnemonic of a row (R84). -/
def Instr.mnemonic (i : Instr) : Mnemonic := i.row.2.1

/-- The opcode entry of a row (R81, R84). -/
def Instr.entry (i : Instr) : OpcodeEntry :=
  { code := i.row.1
    mnemonic := i.mnemonic.name
    mode := i.format.mode
    length := i.format.operandSize.length
    cycles := i.row.2.2.2 }

/-- The opcode map of R84, rows 0x to 7x: one list per high nibble, in the order of the low nibble. -/
def opcodeMapLow : List (List (Option Instr)) :=
  [ [some .brk, some .oraIndX, none, none, none, some .oraZp, some .aslZp, none,
     some .php, some .oraImm, some .aslAcc, none, none, some .oraAbs, some .aslAbs, none],
    [some .bpl, some .oraIndY, none, none, none, some .oraZpX, some .aslZpX, none,
     some .clc, some .oraAbsY, none, none, none, some .oraAbsX, some .aslAbsX, none],
    [some .jsr, some .andIndX, none, none, some .bitZp, some .andZp, some .rolZp, none,
     some .plp, some .andImm, some .rolAcc, none, some .bitAbs, some .andAbs, some .rolAbs, none],
    [some .bmi, some .andIndY, none, none, none, some .andZpX, some .rolZpX, none,
     some .sec, some .andAbsY, none, none, none, some .andAbsX, some .rolAbsX, none],
    [some .rti, some .eorIndX, none, none, none, some .eorZp, some .lsrZp, none,
     some .pha, some .eorImm, some .lsrAcc, none, some .jmpAbs, some .eorAbs, some .lsrAbs, none],
    [some .bvc, some .eorIndY, none, none, none, some .eorZpX, some .lsrZpX, none,
     some .cli, some .eorAbsY, none, none, none, some .eorAbsX, some .lsrAbsX, none],
    [some .rts, some .adcIndX, none, none, none, some .adcZp, some .rorZp, none,
     some .pla, some .adcImm, some .rorAcc, none, some .jmpInd, some .adcAbs, some .rorAbs, none],
    [some .bvs, some .adcIndY, none, none, none, some .adcZpX, some .rorZpX, none,
     some .sei, some .adcAbsY, none, none, none, some .adcAbsX, some .rorAbsX, none] ]

/-- The opcode map of R84, rows 8x to Fx. -/
def opcodeMapHigh : List (List (Option Instr)) :=
  [ [none, some .staIndX, none, none, some .styZp, some .staZp, some .stxZp, none,
     some .dey, none, some .txa, none, some .styAbs, some .staAbs, some .stxAbs, none],
    [some .bcc, some .staIndY, none, none, some .styZpX, some .staZpX, some .stxZpY, none,
     some .tya, some .staAbsY, some .txs, none, none, some .staAbsX, none, none],
    [some .ldyImm, some .ldaIndX, some .ldxImm, none, some .ldyZp, some .ldaZp, some .ldxZp, none,
     some .tay, some .ldaImm, some .tax, none, some .ldyAbs, some .ldaAbs, some .ldxAbs, none],
    [some .bcs, some .ldaIndY, none, none, some .ldyZpX, some .ldaZpX, some .ldxZpY, none,
     some .clv, some .ldaAbsY, some .tsx, none, some .ldyAbsX, some .ldaAbsX, some .ldxAbsY, none],
    [some .cpyImm, some .cmpIndX, none, none, some .cpyZp, some .cmpZp, some .decZp, none,
     some .iny, some .cmpImm, some .dex, none, some .cpyAbs, some .cmpAbs, some .decAbs, none],
    [some .bne, some .cmpIndY, none, none, none, some .cmpZpX, some .decZpX, none,
     some .cld, some .cmpAbsY, none, none, none, some .cmpAbsX, some .decAbsX, none],
    [some .cpxImm, some .sbcIndX, none, none, some .cpxZp, some .sbcZp, some .incZp, none,
     some .inx, some .sbcImm, some .nop, none, some .cpxAbs, some .sbcAbs, some .incAbs, none],
    [some .beq, some .sbcIndY, none, none, none, some .sbcZpX, some .incZpX, none,
     some .sed, some .sbcAbsY, none, none, none, some .sbcAbsX, some .incAbsX, none] ]

/-- Decode an opcode byte (R88): a row of R84, or nothing for the 105 bytes of R86. -/
def decodeOpcode (b : Byte) : Option Instr :=
  ((opcodeMapLow ++ opcodeMapHigh).getD (b.toNat / 16) []).getD (b.toNat % 16) none

/-- Why bytes are no instruction. -/
inductive DecodeError where
  /-- there is no opcode byte -/
  | noBytes
  /-- the byte has no row in R84 (R86) -/
  | unrecognizedOpcode (b : Byte)
  /-- the row's operand bytes are missing -/
  | truncated (i : Instr)
deriving DecidableEq, Repr

/-- The 16-bit value of two operand bytes, low byte first (R83). -/
def wordOfBytes (lo hi : Byte) : Word := hi ++ lo

/-- Decode one whole instruction from the front of a byte list: the row of its opcode byte and the
operand bytes its layout has, with the bytes left over (R82, R83, R88). -/
def decode : List Byte → Except DecodeError (AsmInstr × List Byte)
  | [] => .error .noBytes
  | b :: rest =>
    match decodeOpcode b with
    | none => .error (.unrecognizedOpcode b)
    | some i =>
      match i.format.operandSize, rest with
      | .zero, rest => .ok (⟨i, .none⟩, rest)
      | .one, v :: rest => .ok (⟨i, .byte v⟩, rest)
      | .two, lo :: hi :: rest => .ok (⟨i, .word (wordOfBytes lo hi)⟩, rest)
      | _, _ => .error (.truncated i)

/-- The bytes of an operand, low byte first (R83). -/
def Operand.bytes : Operand → List Byte
  | .none => []
  | .byte v => [v]
  | .word v => [v.setWidth 8, (v >>> 8).setWidth 8]

/-- Encode a whole instruction (R82): the row's opcode byte and its operand bytes. -/
def encode (a : AsmInstr) : List Byte := a.instr.entry.code :: a.operand.bytes

/-- The three bytes of an instruction whose bits are `w`, byte 1 in bits 7..0, with every bit from
`nbits` up zero. -/
def tableBytes (nbits w : Nat) : List Byte :=
  let v := w % 2 ^ nbits
  [BitVec.ofNat 8 v, BitVec.ofNat 8 (v / 256), BitVec.ofNat 8 (v / 65536)]

/-- The row the decoder reads from an instruction whose bits are `w`. -/
def decodeTableWord (nbits w : Nat) : Option Instr :=
  match decode (tableBytes nbits w) with
  | .ok (a, _) => some a.instr
  | .error _ => none

end Sys2Proof
end

