-- ==== Sys2Proof/Machine/Memory.lean ====
section
/-! DEFINITION. A byte store as plain data: a list of (index, byte) pairs in one canonical form, and
the PRG-ROM image read through it (20_memory.md R54, R56). -/

namespace Sys2Proof.Machine

/-- A byte store. An index that is not listed holds 0x00 (log 6, log 7). -/
abbrev Memory := List Host.Cell

/-- The byte an unlisted index holds. DESIGN CHOICE (log 6, log 7). -/
def Memory.unlisted : Byte := 0x00

/-- The byte at an index. -/
def Memory.get : Memory → Nat → Byte
  | [], _ => Memory.unlisted
  | (k, b) :: m, a => if a = k then b else Memory.get m a

/-- The store with one byte written, in canonical form: the listing stays in order, and writing the
byte an unlisted index holds removes the entry. -/
def Memory.set : Memory → Nat → Byte → Memory
  | [], a, v => if v = Memory.unlisted then [] else [(a, v)]
  | (k, b) :: m, a, v =>
    if a < k then (if v = Memory.unlisted then (k, b) :: m else (a, v) :: (k, b) :: m)
    else if a = k then (if v = Memory.unlisted then m else (a, v) :: m)
    else (k, b) :: Memory.set m a v

/-- The canonical form from index `lo` up: indexes strictly rising and below `size`, and no entry
equal to what an unlisted index holds. -/
def Memory.wfFrom (size : Nat) : Nat → Memory → Bool
  | _, [] => true
  | lo, (k, b) :: m =>
    decide (lo ≤ k) && decide (k < size) && (b != Memory.unlisted) && Memory.wfFrom size (k + 1) m

/-- The canonical form of a store of `size` bytes. -/
def Memory.wf (size : Nat) (m : Memory) : Bool := Memory.wfFrom size 0 m

/-- The canonical store that holds the bytes `f lo`, `f (lo + 1)`, … , `n` of them. -/
def Memory.tabulate (f : Nat → Byte) : (lo n : Nat) → Memory
  | _, 0 => []
  | lo, n + 1 =>
    if f lo = Memory.unlisted then Memory.tabulate f (lo + 1) n
    else (lo, f lo) :: Memory.tabulate f (lo + 1) n

/-- The canonical store that holds a list of bytes from index `lo` on. -/
def Memory.ofBytes : (lo : Nat) → List Byte → Memory
  | _, [] => []
  | lo, b :: bs =>
    if b = Memory.unlisted then Memory.ofBytes (lo + 1) bs
    else (lo, b) :: Memory.ofBytes (lo + 1) bs

/-- The number of bytes of work RAM (10_state.md R31). -/
def ramBytes : Nat := 0x800

/-- The number of bytes of a PRG-ROM image (00_scope.md R8). -/
def prgBytes : PrgSize → Nat
  | .k16 => 0x4000
  | .k32 => 0x8000

/-- The RAM index an address below 0x2000 names: the address masked with 0x07FF (20_memory.md R54). -/
def ramIndex (addr : Word) : Nat := (addr &&& 0x07FF).toNat

/-- The index into the PRG-ROM image that an address from 0x8000 up names (20_memory.md R56). -/
def prgIndex (size : PrgSize) (addr : Word) : Nat :=
  match size with
  | .k16 => (addr.toNat - 0x8000) % 0x4000
  | .k32 => addr.toNat - 0x8000

/-- `PrgRead` (20_memory.md R56). -/
def prgRead (size : PrgSize) (prg : Memory) (addr : Word) : Byte :=
  Memory.get prg (prgIndex size addr)

/-- The 16-bit value of two bytes, `(hi << 8) | lo` (20_memory.md R58, R60). -/
def joinBytes (lo hi : Byte) : Word := wordOfBytes lo hi

/-- The reset vector a PRG-ROM image holds at 0xFFFC and 0xFFFD (70_reset_and_hazards.md R351). -/
def resetVector (size : PrgSize) (prg : Memory) : Word :=
  joinBytes (prgRead size prg 0xFFFC) (prgRead size prg 0xFFFD)

end Sys2Proof.Machine
end

