-- ==== Sys2Proof/Machine/State.lean ====
section
/-! DEFINITION. The state of the machine as plain data (10_state.md), why a step can stop, and the
state right after reset. -/

namespace Sys2Proof.Machine

/-- The flags of P (10_state.md R24). -/
inductive Flag where
  | c | z | i | d | b | b2 | v | n
deriving DecidableEq, Repr

/-- The four regions of the address space (20_memory.md R51). -/
inductive Region where
  | ram | video | unmapped | prg
deriving DecidableEq, Repr

/-- The direction of a bus access, recorded by UnimplementedSubsystem (60_exceptions.md R311). -/
inductive Access where
  | read | write
deriving DecidableEq, Repr

/-- The error kinds of 60_exceptions.md R311 with the information each records. A raise ends the step
(R310): the machine stops with the fault, which is safe (log 2). -/
inductive Fault where
  /-- Raised by the cartridge parser before the core exists (R316). No step raises it. Safe. -/
  | invalidContainer
  /-- Raised by a bus write to 0x8000–0xFFFF (R312): by STA, STX, STY, by the memory forms of INC, DEC,
  ASL, LSR, ROL, ROR, and by the observer's writes. Safe. -/
  | illegalWrite (addr : Word) (value : Byte)
  /-- Raised by a bus read or write of 0x2000–0x3FFF (R313): an opcode fetch, an operand byte, a data
  access, a JMP indirect pointer, or an observer's write. Safe. -/
  | unimplementedSubsystem (addr : Word) (access : Access)
  /-- Raised by the fetch of an opcode byte with no table entry (R314); it records the byte and the PC
  at fetch. Safe. -/
  | unrecognizedOpcode (opcode : Byte) (pc : Word)
  /-- Raised by the resolver on NoneAddressing (R315); with the default opcode table no step raises
  it (40_engine.md R124). Safe. -/
  | unsupportedAddressingMode (opcode : Byte) (mode : Mode)
deriving DecidableEq, Repr

/-- Why there is no next state and no error of the engine either: the spec defines no meaning. -/
inductive Refusal where
  /-- The arm of an instruction that has no meaning yet. No arm uses it. Safe. -/
  | notModelled (mnemonic : String)
  /-- A step asked for in the Faulted state: the core defines none (60_exceptions.md R310,
  70_reset_and_hazards.md R359, 93_implementation_defined.md U4; log 4). Safe. -/
  | noStepFromFaulted (f : Fault)
  /-- `reset()`, alone or within `load_and_run`, asked for in the Faulted state: there only a new launch
  continues (70_reset_and_hazards.md R359, decision D17 of the spec; log 19). Safe. -/
  | noResetFromFaulted (f : Fault)
  /-- An entry of a non-default opcode table for which 40_engine.md R126 chooses no handler: a mnemonic
  that is none of the 56; a JMP entry at a byte other than 0x4C and 0x6C; a BRK entry at a byte other than
  0x00, whose halt 10_state.md R30 and R108 forbid (log 9). Safe. -/
  | noHandler (code : Byte)
  /-- `launch` with a PRG-ROM image that is not 0x4000 or 0x8000 bytes (00_scope.md R8). Safe. -/
  | prgLength (n : Nat)
  /-- `launch` with a mapper other than 0 (00_scope.md R12). Safe. -/
  | mapper (id : Byte)
  /-- `launch` with a RAM image that is not 2048 bytes (00_scope.md R9). Safe. -/
  | ramLength (n : Nat)
  /-- `load` of a program whose byte would fall in 0x2000–0x7FFF (70_reset_and_hazards.md R354). Safe. -/
  | loadRange (addr : Word)
deriving DecidableEq, Repr

/-- The run state `RS` (10_state.md R30). -/
inductive RunState where
  | running
  | halted
  | faulted (f : Fault)
deriving DecidableEq, Repr

/-- The parameters of the step (00_scope.md R8 to R11). No step changes them (log 8). -/
structure Params where
  /-- the length of `P_PRG` -/
  prgSize    : PrgSize
  /-- the bytes of `P_PRG` -/
  prg        : Memory
  /-- `P_SKIP_RULE` -/
  skipRule   : SkipRule
  /-- `P_ROT_Z` -/
  rotZ       : RotZ
  /-- `P_OPCODE_TABLE`, as edits to the table of 30_encoding.md R84: a byte and the entry it has
  instead, or none (log 9) -/
  tableEdits : List (Byte × Option OpcodeEntry)
  /-- `P_LOAD_ADDR` -/
  loadAddr   : Word
deriving DecidableEq, Repr

/-- The machine: the register file (10_state.md R20), the run state (R30), the work RAM (R31), the
parameters, the observer's queue and the model's own draw counter. -/
structure State where
  a        : Byte
  x        : Byte
  y        : Byte
  sp       : Byte
  p        : Byte
  pc       : Word
  rs       : RunState
  ram      : Memory
  params   : Params
  /-- `P_OBSERVER` (70_reset_and_hazards.md R358): the bus writes the observer makes after each of the
  next completed instructions; none once the queue is empty (log 10) -/
  observer : List (List (Word × Byte))
  /-- the model's own field: how many draws of `Config.faultedContents` were taken (log 3) -/
  draw     : Nat
deriving DecidableEq, Repr

/-- The parameters of the state after reset: the spec's defaults (00_scope.md R11), with a PRG-ROM
image of 16 KiB of 0x00 (DESIGN CHOICE, log 7) and the load address of log 8. -/
def Params.default : Params :=
  { prgSize := .k16
    prg := []
    skipRule := Config.defaultSkipRule
    rotZ := Config.defaultRotZ
    tableEdits := []
    loadAddr := Config.defaultLoadAddr }

/-- The machine right after reset (10_state.md R36, 70_reset_and_hazards.md R350). -/
def State.reset : State :=
  { a := 0x00
    x := 0x00
    y := 0x00
    sp := 0xFD
    p := 0x22
    pc := resetVector Params.default.prgSize Params.default.prg
    rs := .running
    ram := []
    params := Params.default
    observer := []
    draw := 0 }

end Sys2Proof.Machine
end

