-- ==== Sys2Proof/Machine/Flags.lean ====
section
/-! DEFINITION. The status register's named bits (10_state.md R24) and every flag computation of the
spec: SetZN and SetN (00_scope.md R16), RotZ (44_shift_rotate.md R200), the adder and the comparison
(45_logic_arith.md R223, R226), and the normalisation of a pulled status byte
(47_stack_flag_system.md R283). -/

namespace Sys2Proof.Machine

/-- The bit position of a flag in P (10_state.md R24). -/
def Flag.bit : Flag → Nat
  | .c => 0
  | .z => 1
  | .i => 2
  | .d => 3
  | .b => 4
  | .b2 => 5
  | .v => 6
  | .n => 7

/-- The mask of a flag in P (10_state.md R24). -/
def Flag.mask (f : Flag) : Byte := BitVec.twoPow 8 f.bit

/-- One flag of a status byte. -/
def getFlag (p : Byte) (f : Flag) : Bool := p.getLsbD f.bit

/-- A status byte with one flag written. -/
def putFlag (p : Byte) (f : Flag) (b : Bool) : Byte :=
  if b then p ||| f.mask else p &&& ~~~f.mask

/-- One flag of P. -/
def State.flag (s : State) (f : Flag) : Bool := getFlag s.p f

/-- `P.f <- b` (00_scope.md R14). -/
def State.setFlag (s : State) (f : Flag) (b : Bool) : State := { s with p := putFlag s.p f b }

/-- `SetN(v)` (00_scope.md R16). -/
def State.setN (s : State) (v : Byte) : State := s.setFlag .n v.msb

/-- `SetZN(v)` (00_scope.md R16). -/
def State.setZN (s : State) (v : Byte) : State := (s.setFlag .z (v == 0)).setN v

/-- The two forms of a shift or rotate (44_shift_rotate.md R201). -/
inductive ShiftForm where
  | acc | mem
deriving DecidableEq, Repr

/-- Whether ROL and ROR write Z in a form (44_shift_rotate.md R200). -/
def rotWritesZ (rotZ : RotZ) (form : ShiftForm) : Bool :=
  rotZ == .always || (rotZ == .accOnly && form == .acc)

/-- `RotZ(form, r)` (44_shift_rotate.md R200). -/
def State.setRotZ (s : State) (form : ShiftForm) (r : Byte) : State :=
  if rotWritesZ s.params.rotZ form then s.setFlag .z (r == 0) else s

/-- The flags of ASL and LSR (44_shift_rotate.md R202, R203): C is the bit shifted off, Z and N are
from the result. -/
def State.setShiftFlags (s : State) (carry : Bool) (r : Byte) : State :=
  (s.setFlag .c carry).setZN r

/-- The flags of ROL and ROR (44_shift_rotate.md R204 to R207). -/
def State.setRotateFlags (s : State) (form : ShiftForm) (carry : Bool) (r : Byte) : State :=
  ((s.setFlag .c carry).setN r).setRotZ form r

/-- The exact sum of the shared adder (45_logic_arith.md R223): 0 to 511. -/
def adderSum (a m : Byte) (carry : Bool) : Nat := a.toNat + m.toNat + carry.toNat

/-- The overflow of the shared adder (45_logic_arith.md R223). -/
def adderOverflow (a m r : Byte) : Bool := ((m ^^^ r) &&& (r ^^^ a) &&& 0x80) != 0

/-- `AddToA(m)` (45_logic_arith.md R223). It never reads P.D. -/
def State.addToA (s : State) (m : Byte) : State :=
  let sum := adderSum s.a m (s.flag .c)
  let r := BitVec.ofNat 8 sum
  let s1 := s.setFlag .c (decide (255 < sum))
  let s2 := s1.setFlag .v (adderOverflow s.a m r)
  ({ s2 with a := r }).setZN r

/-- `Compare(reg, m)` (45_logic_arith.md R226). -/
def State.compare (s : State) (reg m : Byte) : State :=
  (s.setFlag .c (decide (m.toNat ≤ reg.toNat))).setZN (reg - m)

/-- The flags of BIT (45_logic_arith.md R229). -/
def State.bitTest (s : State) (m : Byte) : State :=
  ((s.setFlag .z (s.a &&& m == 0)).setFlag .n (m.getLsbD 7)).setFlag .v (m.getLsbD 6)

/-- The byte PHP pushes: Break and Break2 forced to 1 (47_stack_flag_system.md R282). -/
def pushedStatus (p : Byte) : Byte := p ||| 0x30

/-- `PullP(v)`: Break cleared, Break2 forced to 1 (47_stack_flag_system.md R283). -/
def pulledStatus (v : Byte) : Byte := (v &&& ~~~0x10) ||| 0x20

end Sys2Proof.Machine
end

