-- ==== Sys2Proof/Machine/Ops.lean ====
section
/-! DEFINITION. The named operations over registers and memory: the bus (20_memory.md), the stack
primitives (40_engine.md R120 to R123), raising an error and the Faulted state it leaves
(60_exceptions.md R310). -/

namespace Sys2Proof.Machine

/-! Registers. -/

/-- `A <- v`. -/
def State.setA (s : State) (v : Byte) : State := { s with a := v }
/-- `X <- v`. -/
def State.setX (s : State) (v : Byte) : State := { s with x := v }
/-- `Y <- v`. -/
def State.setY (s : State) (v : Byte) : State := { s with y := v }
/-- `SP <- v`. -/
def State.setSp (s : State) (v : Byte) : State := { s with sp := v }
/-- `P <- v`. -/
def State.setP (s : State) (v : Byte) : State := { s with p := v }
/-- `PC <- v`. -/
def State.setPc (s : State) (v : Word) : State := { s with pc := v }
/-- `RS <- r`. -/
def State.setRs (s : State) (r : RunState) : State := { s with rs := r }
/-- Work RAM replaced. -/
def State.setRam (s : State) (m : Memory) : State := { s with ram := m }
/-- The observer's queue replaced. -/
def State.setObserver (s : State) (q : List (List (Word × Byte))) : State := { s with observer := q }

/-! Extension of bytes to addresses (00_scope.md R13). -/

/-- `zext_16(v)`. -/
def zext16 (v : Byte) : Word := v.setWidth 16

/-- `sext_16(v)`. -/
def sext16 (v : Byte) : Word := v.signExtend 16

/-- The low byte of a 16-bit value. -/
def lowByte (v : Word) : Byte := v.setWidth 8

/-- The high byte of a 16-bit value. -/
def highByte (v : Word) : Byte := (v >>> 8).setWidth 8

/-! Errors. -/

/-- `raise E(info)`: the step ends at once with the error (60_exceptions.md R310). -/
def raise {α : Type} (f : Fault) : Except Fault α := .error f

/-- The code of an error kind (60_exceptions.md R311): labels no program can observe. -/
def Fault.code : Fault → Nat
  | .invalidContainer => 1
  | .illegalWrite _ _ => 2
  | .unimplementedSubsystem _ _ => 3
  | .unrecognizedOpcode _ _ => 4
  | .unsupportedAddressingMode _ _ => 5

/-- Registers and RAM at values nothing constrains (60_exceptions.md R310; log 3). The PRG-ROM image,
which no access can change, stays. -/
def State.unspecifiedContents (s : State) : State :=
  let byte := Config.faultedContents s.draw
  { s with
    a := byte 0x800
    x := byte 0x801
    y := byte 0x802
    sp := byte 0x803
    p := byte 0x804
    pc := joinBytes (byte 0x805) (byte 0x806)
    ram := Memory.tabulate byte 0 ramBytes
    draw := s.draw + 1 }

/-- The Faulted state the host sees after a raise in a step from `s` (60_exceptions.md R310): `RS`
records the error; after UnrecognizedOpcode every register and memory byte is as it was before the
step (40_engine.md R105), after any other error registers and RAM are unspecified. -/
def State.enterFaulted (s : State) (f : Fault) : State :=
  match f with
  | .unrecognizedOpcode _ _ => s.setRs (.faulted f)
  | .invalidContainer | .illegalWrite _ _ | .unimplementedSubsystem _ _
  | .unsupportedAddressingMode _ _ => s.unspecifiedContents.setRs (.faulted f)

/-- A handler's result as an outcome of the step. -/
def outcome (r : Except Fault State) : Host.Outcome State Fault Refusal :=
  match r with
  | .ok t => .next t
  | .error f => .fault f

/-! The bus. -/

/-- The region an address decodes to (20_memory.md R51). -/
def region (addr : Word) : Region :=
  if addr.toNat ≤ 0x1FFF then .ram
  else if addr.toNat ≤ 0x3FFF then .video
  else if addr.toNat ≤ 0x7FFF then .unmapped
  else .prg

/-- The video register an address of the window names (20_memory.md R55). Every access to it raises. -/
def videoRegister (addr : Word) : Word := addr &&& 0x2007

/-- `read(addr)` over the storage of the bus (20_memory.md R52). -/
def readStorage (params : Params) (ram : Memory) (addr : Word) : Except Fault Byte :=
  match region addr with
  | .ram => .ok (Memory.get ram (ramIndex addr))
  | .video => raise (.unimplementedSubsystem addr .read)
  | .unmapped => .ok 0x00
  | .prg => .ok (prgRead params.prgSize params.prg addr)

/-- `MemRead(addr, 1)`: the bus read (20_memory.md R52). -/
def State.busRead (s : State) (addr : Word) : Except Fault Byte := readStorage s.params s.ram addr

/-- `MemWrite(addr, 1, v)`: the bus write (20_memory.md R53). A write that raises changes nothing. -/
def State.busWrite (s : State) (addr : Word) (v : Byte) : Except Fault State :=
  match region addr with
  | .ram => .ok (s.setRam (Memory.set s.ram (ramIndex addr) v))
  | .video => raise (.unimplementedSubsystem addr .write)
  | .unmapped => .ok s
  | .prg => raise (.illegalWrite addr v)

/-- `MemRead(addr, 2)`: `read16(addr)`, low byte first, the second address modulo 65536 (20_memory.md R58). -/
def State.read16 (s : State) (addr : Word) : Except Fault Word := do
  let lo ← s.busRead addr
  let hi ← s.busRead (addr + 1)
  .ok (joinBytes lo hi)

/-- `write16(addr, v)`: the low byte, then the high byte (20_memory.md R59). No instruction uses it; it
is the host's. Where the second write raises, the answer is its error and no state: what the memory holds
after an error is unspecified (60_exceptions.md R310; log 3). -/
def State.write16 (s : State) (addr : Word) (v : Word) : Except Fault State := do
  let t ← s.busWrite addr (lowByte v)
  t.busWrite (addr + 1) (highByte v)

/-- A sequence of bus writes, in order (70_reset_and_hazards.md R358). -/
def State.busWrites (s : State) : List (Word × Byte) → Except Fault State
  | [] => .ok s
  | (addr, v) :: ws => do
    let t ← s.busWrite addr v
    t.busWrites ws

/-- Two addresses that name the same byte of work RAM (20_memory.md R54). -/
def sameRamByte (addr addr' : Word) : Bool :=
  region addr == .ram && region addr' == .ram && ramIndex addr == ramIndex addr'

/-! The stack. -/

/-- The bus address of the stack byte that a stack pointer names (10_state.md R32). -/
def stackAddr (sp : Byte) : Word := 0x0100 + zext16 sp

/-- `Push(v)`: write at SP, then decrement SP (40_engine.md R120). -/
def State.push (s : State) (v : Byte) : Except Fault State := do
  let t ← s.busWrite (stackAddr s.sp) v
  .ok (t.setSp (t.sp - 1))

/-- `Pop()`: increment SP, then read at SP (40_engine.md R121). -/
def State.pop (s : State) : Except Fault (Byte × State) := do
  let t := s.setSp (s.sp + 1)
  let v ← t.busRead (stackAddr t.sp)
  .ok (v, t)

/-- `Push16(v)`: the high byte first (40_engine.md R122). -/
def State.push16 (s : State) (v : Word) : Except Fault State := do
  let t ← s.push (highByte v)
  t.push (lowByte v)

/-- `Pop16()`: the low byte first (40_engine.md R123). -/
def State.pop16 (s : State) : Except Fault (Word × State) := do
  let (lo, t) ← s.pop
  let (hi, u) ← t.pop
  .ok (joinBytes lo hi, u)

end Sys2Proof.Machine
end

