-- ==== Sys2Proof/Machine/Operands.lean ====
section
/-! DEFINITION. Every operand form: the addressing-mode resolver (40_engine.md R110 to R119, R124), the
operand helpers of the handlers that do not call it (R125), and the three shapes in which a handler
uses an effective address: read it, write it, or read and write it (R127). All of them run with PC at
the first operand byte (00_scope.md R17). -/

namespace Sys2Proof.Machine

/-- The address at a zero-page pointer, whose high byte's address wraps in page 0 (R117, R118). -/
def State.zeroPagePointer (s : State) (ptr : Byte) : Except Fault Word := do
  let lo ← s.busRead (zext16 ptr)
  let hi ← s.busRead (zext16 (ptr + 1))
  .ok (joinBytes lo hi)

/-- `EA(mode)` for the mode of an opcode entry (R110 to R119, R124). DESIGN CHOICE (log 9, unsafe under
another table): NoneAddressing alone raises, as R124 has it; every other mode resolves for every handler
that asks for it, though 60_exceptions.md R315 speaks also of "an opcode/mode pairing the table should
never produce". -/
def effectiveAddress (e : OpcodeEntry) (s : State) : Except Fault Word :=
  match e.mode with
  | .immediate => .ok s.pc
  | .zeroPage => do
    let zp ← s.busRead s.pc
    .ok (zext16 zp)
  | .zeroPageX => do
    let zp ← s.busRead s.pc
    .ok (zext16 (zp + s.x))
  | .zeroPageY => do
    let zp ← s.busRead s.pc
    .ok (zext16 (zp + s.y))
  | .absolute => s.read16 s.pc
  | .absoluteX => do
    let base ← s.read16 s.pc
    .ok (base + zext16 s.x)
  | .absoluteY => do
    let base ← s.read16 s.pc
    .ok (base + zext16 s.y)
  | .indirectX => do
    let zp ← s.busRead s.pc
    s.zeroPagePointer (zp + s.x)
  | .indirectY => do
    let zp ← s.busRead s.pc
    let base ← s.zeroPagePointer zp
    .ok (base + zext16 s.y)
  | .noneAddressing => raise (.unsupportedAddressingMode e.code .noneAddressing)

/-- `Operand8()` (R125). -/
def State.operand8 (s : State) : Except Fault Byte := s.busRead s.pc

/-- `Operand16()` (R125). -/
def State.operand16 (s : State) : Except Fault Word := s.read16 s.pc

/-- The byte at the effective address: `read(EA(mode))`. -/
def operandByte (e : OpcodeEntry) (s : State) : Except Fault Byte := do
  let ea ← effectiveAddress e s
  s.busRead ea

/-- A handler that reads the byte at the effective address and goes on with it. -/
def withOperand (e : OpcodeEntry) (s : State) (f : State → Byte → State) : Except Fault State := do
  let v ← operandByte e s
  .ok (f s v)

/-- A handler that writes a byte to the effective address and does not read it (41_load_store.md R143). -/
def storeByte (e : OpcodeEntry) (s : State) (v : Byte) : Except Fault State := do
  let ea ← effectiveAddress e s
  s.busWrite ea v

/-- A read-modify-write handler: read the effective address once, write it once (R127; 20_memory.md
R68), then write the flags that the old byte and the new one give. -/
def modifyByte (e : OpcodeEntry) (s : State) (result : State → Byte → Byte)
    (flags : State → Byte → Byte → State) : Except Fault State := do
  let ea ← effectiveAddress e s
  let v ← s.busRead ea
  let t ← s.busWrite ea (result s v)
  .ok (flags t v (result s v))

end Sys2Proof.Machine
end

