-- ==== Sys2Proof/Machine/Control.lean ====
section
/-! DEFINITION. Branches, jumps, subroutine call and return (46_control.md). No handler here writes a flag. -/

namespace Sys2Proof.Machine

/-- The target of a branch: relative to the address after the offset byte, modulo 65536 (R250). -/
def branchTarget (opaddr : Word) (off : Byte) : Word := opaddr + 1 + sext16 off

/-- `Branch(cond)` (R250): the offset is read only if the branch is taken. -/
def branch (cond : Bool) (s : State) : Except Fault State :=
  if cond then do
    let off ← s.operand8
    .ok (s.setPc (branchTarget s.pc off))
  else .ok s

/-- The condition of BCC (R251). -/
def condBcc (s : State) : Bool := s.flag .c == false
/-- The condition of BCS (R252). -/
def condBcs (s : State) : Bool := s.flag .c == true
/-- The condition of BEQ (R253). -/
def condBeq (s : State) : Bool := s.flag .z == true
/-- The condition of BNE (R254). -/
def condBne (s : State) : Bool := s.flag .z == false
/-- The condition of BPL (R255). -/
def condBpl (s : State) : Bool := s.flag .n == false
/-- The condition of BMI (R256). -/
def condBmi (s : State) : Bool := s.flag .n == true
/-- The condition of BVC (R257). -/
def condBvc (s : State) : Bool := s.flag .v == false
/-- The condition of BVS (R258). -/
def condBvs (s : State) : Bool := s.flag .v == true

/-- BCC (R251). -/
def handleBcc (s : State) : Except Fault State := branch (condBcc s) s
/-- BCS (R252). -/
def handleBcs (s : State) : Except Fault State := branch (condBcs s) s
/-- BEQ (R253). -/
def handleBeq (s : State) : Except Fault State := branch (condBeq s) s
/-- BNE (R254). -/
def handleBne (s : State) : Except Fault State := branch (condBne s) s
/-- BPL (R255). -/
def handleBpl (s : State) : Except Fault State := branch (condBpl s) s
/-- BMI (R256). -/
def handleBmi (s : State) : Except Fault State := branch (condBmi s) s
/-- BVC (R257). -/
def handleBvc (s : State) : Except Fault State := branch (condBvc s) s
/-- BVS (R258). -/
def handleBvs (s : State) : Except Fault State := branch (condBvs s) s

/-- JMP absolute (R259). -/
def handleJmpAbs (s : State) : Except Fault State := do
  let target ← s.operand16
  .ok (s.setPc target)

/-- JMP indirect (R260): `read16` carries into the pointer's high byte. -/
def handleJmpInd (s : State) : Except Fault State := do
  let ptr ← s.operand16
  let target ← s.read16 ptr
  .ok (s.setPc target)

/-- JSR (R261): the return address less one is pushed, and the operand is read after the push. -/
def handleJsr (s : State) : Except Fault State := do
  let t ← s.push16 (s.pc + 2 - 1)
  let target ← t.operand16
  .ok (t.setPc target)

/-- RTS (R262). -/
def handleRts (s : State) : Except Fault State := do
  let (v, t) ← s.pop16
  .ok (t.setPc (v + 1))

/-! The meanings of the rows. -/

/-- BCC, opcode 0x90 (R251). -/
def execBcc (s : State) : Host.Outcome State Fault Refusal :=
  outcome (handleBcc s)

/-- BCS, opcode 0xB0 (R252). -/
def execBcs (s : State) : Host.Outcome State Fault Refusal :=
  outcome (handleBcs s)

/-- BEQ, opcode 0xF0 (R253). -/
def execBeq (s : State) : Host.Outcome State Fault Refusal :=
  outcome (handleBeq s)

/-- BNE, opcode 0xD0 (R254). -/
def execBne (s : State) : Host.Outcome State Fault Refusal :=
  outcome (handleBne s)

/-- BPL, opcode 0x10 (R255). -/
def execBpl (s : State) : Host.Outcome State Fault Refusal :=
  outcome (handleBpl s)

/-- BMI, opcode 0x30 (R256). -/
def execBmi (s : State) : Host.Outcome State Fault Refusal :=
  outcome (handleBmi s)

/-- BVC, opcode 0x50 (R257). -/
def execBvc (s : State) : Host.Outcome State Fault Refusal :=
  outcome (handleBvc s)

/-- BVS, opcode 0x70 (R258). -/
def execBvs (s : State) : Host.Outcome State Fault Refusal :=
  outcome (handleBvs s)

/-- JMP, opcode 0x4C (R259). -/
def execJmpAbs (s : State) : Host.Outcome State Fault Refusal :=
  outcome (handleJmpAbs s)
/-- JMP, opcode 0x6C (R260). -/
def execJmpInd (s : State) : Host.Outcome State Fault Refusal :=
  outcome (handleJmpInd s)

/-- JSR, opcode 0x20 (R261). -/
def execJsr (s : State) : Host.Outcome State Fault Refusal :=
  outcome (handleJsr s)

/-- RTS, opcode 0x60 (R262). -/
def execRts (s : State) : Host.Outcome State Fault Refusal :=
  outcome (handleRts s)

end Sys2Proof.Machine
end

