-- ==== Sys2Proof/Machine/IncDec.lean ====
section
/-! DEFINITION. Increment and decrement (43_inc_dec.md). -/

namespace Sys2Proof.Machine

/-- INX (R180). -/
def handleInx (s : State) : Except Fault State := .ok ((s.setX (s.x + 1)).setZN (s.x + 1))

/-- INY (R181). -/
def handleIny (s : State) : Except Fault State := .ok ((s.setY (s.y + 1)).setZN (s.y + 1))

/-- DEX (R182). -/
def handleDex (s : State) : Except Fault State := .ok ((s.setX (s.x - 1)).setZN (s.x - 1))

/-- DEY (R183). -/
def handleDey (s : State) : Except Fault State := .ok ((s.setY (s.y - 1)).setZN (s.y - 1))

/-- INC (R184). -/
def handleInc (e : OpcodeEntry) (s : State) : Except Fault State :=
  modifyByte e s (fun _ v => v + 1) (fun t _ r => t.setZN r)

/-- DEC (R185). -/
def handleDec (e : OpcodeEntry) (s : State) : Except Fault State :=
  modifyByte e s (fun _ v => v - 1) (fun t _ r => t.setZN r)

/-! The meanings of the rows. -/

/-- INX, opcode 0xE8 (R180). -/
def execInx (s : State) : Host.Outcome State Fault Refusal :=
  outcome (handleInx s)

/-- INY, opcode 0xC8 (R181). -/
def execIny (s : State) : Host.Outcome State Fault Refusal :=
  outcome (handleIny s)

/-- DEX, opcode 0xCA (R182). -/
def execDex (s : State) : Host.Outcome State Fault Refusal :=
  outcome (handleDex s)

/-- DEY, opcode 0x88 (R183). -/
def execDey (s : State) : Host.Outcome State Fault Refusal :=
  outcome (handleDey s)

/-- INC, opcode 0xE6 (R184). -/
def execIncZp (s : State) : Host.Outcome State Fault Refusal :=
  outcome (handleInc Instr.incZp.entry s)
/-- INC, opcode 0xEE (R184). -/
def execIncAbs (s : State) : Host.Outcome State Fault Refusal :=
  outcome (handleInc Instr.incAbs.entry s)
/-- INC, opcode 0xF6 (R184). -/
def execIncZpX (s : State) : Host.Outcome State Fault Refusal :=
  outcome (handleInc Instr.incZpX.entry s)
/-- INC, opcode 0xFE (R184). -/
def execIncAbsX (s : State) : Host.Outcome State Fault Refusal :=
  outcome (handleInc Instr.incAbsX.entry s)

/-- DEC, opcode 0xC6 (R185). -/
def execDecZp (s : State) : Host.Outcome State Fault Refusal :=
  outcome (handleDec Instr.decZp.entry s)
/-- DEC, opcode 0xCE (R185). -/
def execDecAbs (s : State) : Host.Outcome State Fault Refusal :=
  outcome (handleDec Instr.decAbs.entry s)
/-- DEC, opcode 0xD6 (R185). -/
def execDecZpX (s : State) : Host.Outcome State Fault Refusal :=
  outcome (handleDec Instr.decZpX.entry s)
/-- DEC, opcode 0xDE (R185). -/
def execDecAbsX (s : State) : Host.Outcome State Fault Refusal :=
  outcome (handleDec Instr.decAbsX.entry s)

end Sys2Proof.Machine
end

