-- ==== Sys2Proof/Machine/LoadStore.lean ====
section
/-! DEFINITION. Loads and stores (41_load_store.md). -/

namespace Sys2Proof.Machine

/-- LDA (R140). -/
def handleLda (e : OpcodeEntry) (s : State) : Except Fault State :=
  withOperand e s fun t v => (t.setA v).setZN v

/-- LDX (R141). -/
def handleLdx (e : OpcodeEntry) (s : State) : Except Fault State :=
  withOperand e s fun t v => (t.setX v).setZN v

/-- LDY (R142). -/
def handleLdy (e : OpcodeEntry) (s : State) : Except Fault State :=
  withOperand e s fun t v => (t.setY v).setZN v

/-- STA (R143). -/
def handleSta (e : OpcodeEntry) (s : State) : Except Fault State := storeByte e s s.a

/-- STX (R144). -/
def handleStx (e : OpcodeEntry) (s : State) : Except Fault State := storeByte e s s.x

/-- STY (R145). -/
def handleSty (e : OpcodeEntry) (s : State) : Except Fault State := storeByte e s s.y

/-! The meanings of the rows. -/

/-- LDA, opcode 0xA1 (R140). -/
def execLdaIndX (s : State) : Host.Outcome State Fault Refusal :=
  outcome (handleLda Instr.ldaIndX.entry s)
/-- LDA, opcode 0xA5 (R140). -/
def execLdaZp (s : State) : Host.Outcome State Fault Refusal :=
  outcome (handleLda Instr.ldaZp.entry s)
/-- LDA, opcode 0xA9 (R140). -/
def execLdaImm (s : State) : Host.Outcome State Fault Refusal :=
  outcome (handleLda Instr.ldaImm.entry s)
/-- LDA, opcode 0xAD (R140). -/
def execLdaAbs (s : State) : Host.Outcome State Fault Refusal :=
  outcome (handleLda Instr.ldaAbs.entry s)
/-- LDA, opcode 0xB1 (R140). -/
def execLdaIndY (s : State) : Host.Outcome State Fault Refusal :=
  outcome (handleLda Instr.ldaIndY.entry s)
/-- LDA, opcode 0xB5 (R140). -/
def execLdaZpX (s : State) : Host.Outcome State Fault Refusal :=
  outcome (handleLda Instr.ldaZpX.entry s)
/-- LDA, opcode 0xB9 (R140). -/
def execLdaAbsY (s : State) : Host.Outcome State Fault Refusal :=
  outcome (handleLda Instr.ldaAbsY.entry s)
/-- LDA, opcode 0xBD (R140). -/
def execLdaAbsX (s : State) : Host.Outcome State Fault Refusal :=
  outcome (handleLda Instr.ldaAbsX.entry s)

/-- LDX, opcode 0xA2 (R141). -/
def execLdxImm (s : State) : Host.Outcome State Fault Refusal :=
  outcome (handleLdx Instr.ldxImm.entry s)
/-- LDX, opcode 0xA6 (R141). -/
def execLdxZp (s : State) : Host.Outcome State Fault Refusal :=
  outcome (handleLdx Instr.ldxZp.entry s)
/-- LDX, opcode 0xAE (R141). -/
def execLdxAbs (s : State) : Host.Outcome State Fault Refusal :=
  outcome (handleLdx Instr.ldxAbs.entry s)
/-- LDX, opcode 0xB6 (R141). -/
def execLdxZpY (s : State) : Host.Outcome State Fault Refusal :=
  outcome (handleLdx Instr.ldxZpY.entry s)
/-- LDX, opcode 0xBE (R141). -/
def execLdxAbsY (s : State) : Host.Outcome State Fault Refusal :=
  outcome (handleLdx Instr.ldxAbsY.entry s)

/-- LDY, opcode 0xA0 (R142). -/
def execLdyImm (s : State) : Host.Outcome State Fault Refusal :=
  outcome (handleLdy Instr.ldyImm.entry s)
/-- LDY, opcode 0xA4 (R142). -/
def execLdyZp (s : State) : Host.Outcome State Fault Refusal :=
  outcome (handleLdy Instr.ldyZp.entry s)
/-- LDY, opcode 0xAC (R142). -/
def execLdyAbs (s : State) : Host.Outcome State Fault Refusal :=
  outcome (handleLdy Instr.ldyAbs.entry s)
/-- LDY, opcode 0xB4 (R142). -/
def execLdyZpX (s : State) : Host.Outcome State Fault Refusal :=
  outcome (handleLdy Instr.ldyZpX.entry s)
/-- LDY, opcode 0xBC (R142). -/
def execLdyAbsX (s : State) : Host.Outcome State Fault Refusal :=
  outcome (handleLdy Instr.ldyAbsX.entry s)

/-- STA, opcode 0x81 (R143). -/
def execStaIndX (s : State) : Host.Outcome State Fault Refusal :=
  outcome (handleSta Instr.staIndX.entry s)
/-- STA, opcode 0x85 (R143). -/
def execStaZp (s : State) : Host.Outcome State Fault Refusal :=
  outcome (handleSta Instr.staZp.entry s)
/-- STA, opcode 0x8D (R143). -/
def execStaAbs (s : State) : Host.Outcome State Fault Refusal :=
  outcome (handleSta Instr.staAbs.entry s)
/-- STA, opcode 0x91 (R143). -/
def execStaIndY (s : State) : Host.Outcome State Fault Refusal :=
  outcome (handleSta Instr.staIndY.entry s)
/-- STA, opcode 0x95 (R143). -/
def execStaZpX (s : State) : Host.Outcome State Fault Refusal :=
  outcome (handleSta Instr.staZpX.entry s)
/-- STA, opcode 0x99 (R143). -/
def execStaAbsY (s : State) : Host.Outcome State Fault Refusal :=
  outcome (handleSta Instr.staAbsY.entry s)
/-- STA, opcode 0x9D (R143). -/
def execStaAbsX (s : State) : Host.Outcome State Fault Refusal :=
  outcome (handleSta Instr.staAbsX.entry s)

/-- STX, opcode 0x86 (R144). -/
def execStxZp (s : State) : Host.Outcome State Fault Refusal :=
  outcome (handleStx Instr.stxZp.entry s)
/-- STX, opcode 0x8E (R144). -/
def execStxAbs (s : State) : Host.Outcome State Fault Refusal :=
  outcome (handleStx Instr.stxAbs.entry s)
/-- STX, opcode 0x96 (R144). -/
def execStxZpY (s : State) : Host.Outcome State Fault Refusal :=
  outcome (handleStx Instr.stxZpY.entry s)

/-- STY, opcode 0x84 (R145). -/
def execStyZp (s : State) : Host.Outcome State Fault Refusal :=
  outcome (handleSty Instr.styZp.entry s)
/-- STY, opcode 0x8C (R145). -/
def execStyAbs (s : State) : Host.Outcome State Fault Refusal :=
  outcome (handleSty Instr.styAbs.entry s)
/-- STY, opcode 0x94 (R145). -/
def execStyZpX (s : State) : Host.Outcome State Fault Refusal :=
  outcome (handleSty Instr.styZpX.entry s)

end Sys2Proof.Machine
end

