-- ==== Sys2Proof/Machine/LogicArith.lean ====
section
/-! DEFINITION. Logic, arithmetic, compare and bit test (45_logic_arith.md). Every handler reads one byte
at its effective address and writes no memory. -/

namespace Sys2Proof.Machine

/-- AND (R220). -/
def handleAnd (e : OpcodeEntry) (s : State) : Except Fault State :=
  withOperand e s fun t m => (t.setA (t.a &&& m)).setZN (t.a &&& m)

/-- EOR (R221). -/
def handleEor (e : OpcodeEntry) (s : State) : Except Fault State :=
  withOperand e s fun t m => (t.setA (t.a ^^^ m)).setZN (t.a ^^^ m)

/-- ORA (R222). -/
def handleOra (e : OpcodeEntry) (s : State) : Except Fault State :=
  withOperand e s fun t m => (t.setA (t.a ||| m)).setZN (t.a ||| m)

/-- ADC (R224). -/
def handleAdc (e : OpcodeEntry) (s : State) : Except Fault State :=
  withOperand e s fun t m => t.addToA m

/-- SBC (R225): the shared adder on the complemented operand. -/
def handleSbc (e : OpcodeEntry) (s : State) : Except Fault State :=
  withOperand e s fun t m => t.addToA (m ^^^ 0xFF)

/-- CMP (R226). -/
def handleCmp (e : OpcodeEntry) (s : State) : Except Fault State :=
  withOperand e s fun t m => t.compare t.a m

/-- CPX (R227). -/
def handleCpx (e : OpcodeEntry) (s : State) : Except Fault State :=
  withOperand e s fun t m => t.compare t.x m

/-- CPY (R228). -/
def handleCpy (e : OpcodeEntry) (s : State) : Except Fault State :=
  withOperand e s fun t m => t.compare t.y m

/-- BIT (R229). -/
def handleBit (e : OpcodeEntry) (s : State) : Except Fault State :=
  withOperand e s fun t m => t.bitTest m

/-! The meanings of the rows. -/

/-- AND, opcode 0x21 (R220). -/
def execAndIndX (s : State) : Host.Outcome State Fault Refusal :=
  outcome (handleAnd Instr.andIndX.entry s)
/-- AND, opcode 0x25 (R220). -/
def execAndZp (s : State) : Host.Outcome State Fault Refusal :=
  outcome (handleAnd Instr.andZp.entry s)
/-- AND, opcode 0x29 (R220). -/
def execAndImm (s : State) : Host.Outcome State Fault Refusal :=
  outcome (handleAnd Instr.andImm.entry s)
/-- AND, opcode 0x2D (R220). -/
def execAndAbs (s : State) : Host.Outcome State Fault Refusal :=
  outcome (handleAnd Instr.andAbs.entry s)
/-- AND, opcode 0x31 (R220). -/
def execAndIndY (s : State) : Host.Outcome State Fault Refusal :=
  outcome (handleAnd Instr.andIndY.entry s)
/-- AND, opcode 0x35 (R220). -/
def execAndZpX (s : State) : Host.Outcome State Fault Refusal :=
  outcome (handleAnd Instr.andZpX.entry s)
/-- AND, opcode 0x39 (R220). -/
def execAndAbsY (s : State) : Host.Outcome State Fault Refusal :=
  outcome (handleAnd Instr.andAbsY.entry s)
/-- AND, opcode 0x3D (R220). -/
def execAndAbsX (s : State) : Host.Outcome State Fault Refusal :=
  outcome (handleAnd Instr.andAbsX.entry s)

/-- EOR, opcode 0x41 (R221). -/
def execEorIndX (s : State) : Host.Outcome State Fault Refusal :=
  outcome (handleEor Instr.eorIndX.entry s)
/-- EOR, opcode 0x45 (R221). -/
def execEorZp (s : State) : Host.Outcome State Fault Refusal :=
  outcome (handleEor Instr.eorZp.entry s)
/-- EOR, opcode 0x49 (R221). -/
def execEorImm (s : State) : Host.Outcome State Fault Refusal :=
  outcome (handleEor Instr.eorImm.entry s)
/-- EOR, opcode 0x4D (R221). -/
def execEorAbs (s : State) : Host.Outcome State Fault Refusal :=
  outcome (handleEor Instr.eorAbs.entry s)
/-- EOR, opcode 0x51 (R221). -/
def execEorIndY (s : State) : Host.Outcome State Fault Refusal :=
  outcome (handleEor Instr.eorIndY.entry s)
/-- EOR, opcode 0x55 (R221). -/
def execEorZpX (s : State) : Host.Outcome State Fault Refusal :=
  outcome (handleEor Instr.eorZpX.entry s)
/-- EOR, opcode 0x59 (R221). -/
def execEorAbsY (s : State) : Host.Outcome State Fault Refusal :=
  outcome (handleEor Instr.eorAbsY.entry s)
/-- EOR, opcode 0x5D (R221). -/
def execEorAbsX (s : State) : Host.Outcome State Fault Refusal :=
  outcome (handleEor Instr.eorAbsX.entry s)

/-- ORA, opcode 0x01 (R222). -/
def execOraIndX (s : State) : Host.Outcome State Fault Refusal :=
  outcome (handleOra Instr.oraIndX.entry s)
/-- ORA, opcode 0x05 (R222). -/
def execOraZp (s : State) : Host.Outcome State Fault Refusal :=
  outcome (handleOra Instr.oraZp.entry s)
/-- ORA, opcode 0x09 (R222). -/
def execOraImm (s : State) : Host.Outcome State Fault Refusal :=
  outcome (handleOra Instr.oraImm.entry s)
/-- ORA, opcode 0x0D (R222). -/
def execOraAbs (s : State) : Host.Outcome State Fault Refusal :=
  outcome (handleOra Instr.oraAbs.entry s)
/-- ORA, opcode 0x11 (R222). -/
def execOraIndY (s : State) : Host.Outcome State Fault Refusal :=
  outcome (handleOra Instr.oraIndY.entry s)
/-- ORA, opcode 0x15 (R222). -/
def execOraZpX (s : State) : Host.Outcome State Fault Refusal :=
  outcome (handleOra Instr.oraZpX.entry s)
/-- ORA, opcode 0x19 (R222). -/
def execOraAbsY (s : State) : Host.Outcome State Fault Refusal :=
  outcome (handleOra Instr.oraAbsY.entry s)
/-- ORA, opcode 0x1D (R222). -/
def execOraAbsX (s : State) : Host.Outcome State Fault Refusal :=
  outcome (handleOra Instr.oraAbsX.entry s)

/-- ADC, opcode 0x61 (R224). -/
def execAdcIndX (s : State) : Host.Outcome State Fault Refusal :=
  outcome (handleAdc Instr.adcIndX.entry s)
/-- ADC, opcode 0x65 (R224). -/
def execAdcZp (s : State) : Host.Outcome State Fault Refusal :=
  outcome (handleAdc Instr.adcZp.entry s)
/-- ADC, opcode 0x69 (R224). -/
def execAdcImm (s : State) : Host.Outcome State Fault Refusal :=
  outcome (handleAdc Instr.adcImm.entry s)
/-- ADC, opcode 0x6D (R224). -/
def execAdcAbs (s : State) : Host.Outcome State Fault Refusal :=
  outcome (handleAdc Instr.adcAbs.entry s)
/-- ADC, opcode 0x71 (R224). -/
def execAdcIndY (s : State) : Host.Outcome State Fault Refusal :=
  outcome (handleAdc Instr.adcIndY.entry s)
/-- ADC, opcode 0x75 (R224). -/
def execAdcZpX (s : State) : Host.Outcome State Fault Refusal :=
  outcome (handleAdc Instr.adcZpX.entry s)
/-- ADC, opcode 0x79 (R224). -/
def execAdcAbsY (s : State) : Host.Outcome State Fault Refusal :=
  outcome (handleAdc Instr.adcAbsY.entry s)
/-- ADC, opcode 0x7D (R224). -/
def execAdcAbsX (s : State) : Host.Outcome State Fault Refusal :=
  outcome (handleAdc Instr.adcAbsX.entry s)

/-- SBC, opcode 0xE1 (R225). -/
def execSbcIndX (s : State) : Host.Outcome State Fault Refusal :=
  outcome (handleSbc Instr.sbcIndX.entry s)
/-- SBC, opcode 0xE5 (R225). -/
def execSbcZp (s : State) : Host.Outcome State Fault Refusal :=
  outcome (handleSbc Instr.sbcZp.entry s)
/-- SBC, opcode 0xE9 (R225). -/
def execSbcImm (s : State) : Host.Outcome State Fault Refusal :=
  outcome (handleSbc Instr.sbcImm.entry s)
/-- SBC, opcode 0xED (R225). -/
def execSbcAbs (s : State) : Host.Outcome State Fault Refusal :=
  outcome (handleSbc Instr.sbcAbs.entry s)
/-- SBC, opcode 0xF1 (R225). -/
def execSbcIndY (s : State) : Host.Outcome State Fault Refusal :=
  outcome (handleSbc Instr.sbcIndY.entry s)
/-- SBC, opcode 0xF5 (R225). -/
def execSbcZpX (s : State) : Host.Outcome State Fault Refusal :=
  outcome (handleSbc Instr.sbcZpX.entry s)
/-- SBC, opcode 0xF9 (R225). -/
def execSbcAbsY (s : State) : Host.Outcome State Fault Refusal :=
  outcome (handleSbc Instr.sbcAbsY.entry s)
/-- SBC, opcode 0xFD (R225). -/
def execSbcAbsX (s : State) : Host.Outcome State Fault Refusal :=
  outcome (handleSbc Instr.sbcAbsX.entry s)

/-- CMP, opcode 0xC1 (R226). -/
def execCmpIndX (s : State) : Host.Outcome State Fault Refusal :=
  outcome (handleCmp Instr.cmpIndX.entry s)
/-- CMP, opcode 0xC5 (R226). -/
def execCmpZp (s : State) : Host.Outcome State Fault Refusal :=
  outcome (handleCmp Instr.cmpZp.entry s)
/-- CMP, opcode 0xC9 (R226). -/
def execCmpImm (s : State) : Host.Outcome State Fault Refusal :=
  outcome (handleCmp Instr.cmpImm.entry s)
/-- CMP, opcode 0xCD (R226). -/
def execCmpAbs (s : State) : Host.Outcome State Fault Refusal :=
  outcome (handleCmp Instr.cmpAbs.entry s)
/-- CMP, opcode 0xD1 (R226). -/
def execCmpIndY (s : State) : Host.Outcome State Fault Refusal :=
  outcome (handleCmp Instr.cmpIndY.entry s)
/-- CMP, opcode 0xD5 (R226). -/
def execCmpZpX (s : State) : Host.Outcome State Fault Refusal :=
  outcome (handleCmp Instr.cmpZpX.entry s)
/-- CMP, opcode 0xD9 (R226). -/
def execCmpAbsY (s : State) : Host.Outcome State Fault Refusal :=
  outcome (handleCmp Instr.cmpAbsY.entry s)
/-- CMP, opcode 0xDD (R226). -/
def execCmpAbsX (s : State) : Host.Outcome State Fault Refusal :=
  outcome (handleCmp Instr.cmpAbsX.entry s)

/-- CPX, opcode 0xE0 (R227). -/
def execCpxImm (s : State) : Host.Outcome State Fault Refusal :=
  outcome (handleCpx Instr.cpxImm.entry s)
/-- CPX, opcode 0xE4 (R227). -/
def execCpxZp (s : State) : Host.Outcome State Fault Refusal :=
  outcome (handleCpx Instr.cpxZp.entry s)
/-- CPX, opcode 0xEC (R227). -/
def execCpxAbs (s : State) : Host.Outcome State Fault Refusal :=
  outcome (handleCpx Instr.cpxAbs.entry s)

/-- CPY, opcode 0xC0 (R228). -/
def execCpyImm (s : State) : Host.Outcome State Fault Refusal :=
  outcome (handleCpy Instr.cpyImm.entry s)
/-- CPY, opcode 0xC4 (R228). -/
def execCpyZp (s : State) : Host.Outcome State Fault Refusal :=
  outcome (handleCpy Instr.cpyZp.entry s)
/-- CPY, opcode 0xCC (R228). -/
def execCpyAbs (s : State) : Host.Outcome State Fault Refusal :=
  outcome (handleCpy Instr.cpyAbs.entry s)

/-- BIT, opcode 0x24 (R229). -/
def execBitZp (s : State) : Host.Outcome State Fault Refusal :=
  outcome (handleBit Instr.bitZp.entry s)
/-- BIT, opcode 0x2C (R229). -/
def execBitAbs (s : State) : Host.Outcome State Fault Refusal :=
  outcome (handleBit Instr.bitAbs.entry s)

end Sys2Proof.Machine
end

