-- ==== Sys2Proof/Machine/ShiftRotate.lean ====
section
/-! DEFINITION. Shifts and rotates (44_shift_rotate.md). -/

namespace Sys2Proof.Machine

/-- `(v << 1) & 0xFF` (R202). -/
def shiftLeft (v : Byte) : Byte := v <<< 1

/-- `v >> 1` (R203). -/
def shiftRight (v : Byte) : Byte := v >>> 1

/-- `((v << 1) | c0) & 0xFF` (R204). -/
def rotateLeft (carry : Bool) (v : Byte) : Byte := (v <<< 1) ||| (BitVec.ofBool carry).setWidth 8

/-- `(v >> 1) | (c0 << 7)` (R206). -/
def rotateRight (carry : Bool) (v : Byte) : Byte := (v >>> 1) ||| ((BitVec.ofBool carry).setWidth 8 <<< 7)

/-- ASL A (R202). -/
def handleAslAcc (s : State) : Except Fault State :=
  let r := shiftLeft s.a
  .ok ((s.setA r).setShiftFlags (s.a.getLsbD 7) r)

/-- ASL on memory (R202). -/
def handleAslMem (e : OpcodeEntry) (s : State) : Except Fault State :=
  modifyByte e s (fun _ v => shiftLeft v) (fun t v r => t.setShiftFlags (v.getLsbD 7) r)

/-- LSR A (R203). -/
def handleLsrAcc (s : State) : Except Fault State :=
  let r := shiftRight s.a
  .ok ((s.setA r).setShiftFlags (s.a.getLsbD 0) r)

/-- LSR on memory (R203). -/
def handleLsrMem (e : OpcodeEntry) (s : State) : Except Fault State :=
  modifyByte e s (fun _ v => shiftRight v) (fun t v r => t.setShiftFlags (v.getLsbD 0) r)

/-- ROL A (R204). -/
def handleRolAcc (s : State) : Except Fault State :=
  let r := rotateLeft (s.flag .c) s.a
  .ok ((s.setA r).setRotateFlags .acc (s.a.getLsbD 7) r)

/-- ROL on memory (R205). -/
def handleRolMem (e : OpcodeEntry) (s : State) : Except Fault State :=
  modifyByte e s (fun t v => rotateLeft (t.flag .c) v)
    (fun t v r => t.setRotateFlags .mem (v.getLsbD 7) r)

/-- ROR A (R206). -/
def handleRorAcc (s : State) : Except Fault State :=
  let r := rotateRight (s.flag .c) s.a
  .ok ((s.setA r).setRotateFlags .acc (s.a.getLsbD 0) r)

/-- ROR on memory (R207). -/
def handleRorMem (e : OpcodeEntry) (s : State) : Except Fault State :=
  modifyByte e s (fun t v => rotateRight (t.flag .c) v)
    (fun t v r => t.setRotateFlags .mem (v.getLsbD 0) r)

/-- The form a shift or rotate row has (R201): the accumulator form is the opcode with low nibble 0xA. -/
def shiftFormOf (code : Byte) : ShiftForm := if code &&& 0x0F = 0x0A then .acc else .mem

/-! The meanings of the rows. -/

/-- ASL, opcode 0x06 (R202). -/
def execAslZp (s : State) : Host.Outcome State Fault Refusal :=
  outcome (handleAslMem Instr.aslZp.entry s)
/-- ASL, opcode 0x0A (R202). -/
def execAslAcc (s : State) : Host.Outcome State Fault Refusal :=
  outcome (handleAslAcc s)
/-- ASL, opcode 0x0E (R202). -/
def execAslAbs (s : State) : Host.Outcome State Fault Refusal :=
  outcome (handleAslMem Instr.aslAbs.entry s)
/-- ASL, opcode 0x16 (R202). -/
def execAslZpX (s : State) : Host.Outcome State Fault Refusal :=
  outcome (handleAslMem Instr.aslZpX.entry s)
/-- ASL, opcode 0x1E (R202). -/
def execAslAbsX (s : State) : Host.Outcome State Fault Refusal :=
  outcome (handleAslMem Instr.aslAbsX.entry s)

/-- LSR, opcode 0x46 (R203). -/
def execLsrZp (s : State) : Host.Outcome State Fault Refusal :=
  outcome (handleLsrMem Instr.lsrZp.entry s)
/-- LSR, opcode 0x4A (R203). -/
def execLsrAcc (s : State) : Host.Outcome State Fault Refusal :=
  outcome (handleLsrAcc s)
/-- LSR, opcode 0x4E (R203). -/
def execLsrAbs (s : State) : Host.Outcome State Fault Refusal :=
  outcome (handleLsrMem Instr.lsrAbs.entry s)
/-- LSR, opcode 0x56 (R203). -/
def execLsrZpX (s : State) : Host.Outcome State Fault Refusal :=
  outcome (handleLsrMem Instr.lsrZpX.entry s)
/-- LSR, opcode 0x5E (R203). -/
def execLsrAbsX (s : State) : Host.Outcome State Fault Refusal :=
  outcome (handleLsrMem Instr.lsrAbsX.entry s)

/-- ROL, opcode 0x26 (R205). -/
def execRolZp (s : State) : Host.Outcome State Fault Refusal :=
  outcome (handleRolMem Instr.rolZp.entry s)
/-- ROL, opcode 0x2A (R204). -/
def execRolAcc (s : State) : Host.Outcome State Fault Refusal :=
  outcome (handleRolAcc s)
/-- ROL, opcode 0x2E (R205). -/
def execRolAbs (s : State) : Host.Outcome State Fault Refusal :=
  outcome (handleRolMem Instr.rolAbs.entry s)
/-- ROL, opcode 0x36 (R205). -/
def execRolZpX (s : State) : Host.Outcome State Fault Refusal :=
  outcome (handleRolMem Instr.rolZpX.entry s)
/-- ROL, opcode 0x3E (R205). -/
def execRolAbsX (s : State) : Host.Outcome State Fault Refusal :=
  outcome (handleRolMem Instr.rolAbsX.entry s)

/-- ROR, opcode 0x66 (R207). -/
def execRorZp (s : State) : Host.Outcome State Fault Refusal :=
  outcome (handleRorMem Instr.rorZp.entry s)
/-- ROR, opcode 0x6A (R206). -/
def execRorAcc (s : State) : Host.Outcome State Fault Refusal :=
  outcome (handleRorAcc s)
/-- ROR, opcode 0x6E (R207). -/
def execRorAbs (s : State) : Host.Outcome State Fault Refusal :=
  outcome (handleRorMem Instr.rorAbs.entry s)
/-- ROR, opcode 0x76 (R207). -/
def execRorZpX (s : State) : Host.Outcome State Fault Refusal :=
  outcome (handleRorMem Instr.rorZpX.entry s)
/-- ROR, opcode 0x7E (R207). -/
def execRorAbsX (s : State) : Host.Outcome State Fault Refusal :=
  outcome (handleRorMem Instr.rorAbsX.entry s)

end Sys2Proof.Machine
end

