-- ==== Sys2Proof/Machine/StackFlag.lean ====
section
/-! DEFINITION. Stack, flag, return-from-interrupt, no-op and halt instructions
(47_stack_flag_system.md). -/

namespace Sys2Proof.Machine

/-- PHA (R280). -/
def handlePha (s : State) : Except Fault State := s.push s.a

/-- PLA (R281). -/
def handlePla (s : State) : Except Fault State := do
  let (v, t) ← s.pop
  .ok ((t.setA v).setZN v)

/-- PHP (R282): the register P stays as it is. -/
def handlePhp (s : State) : Except Fault State := s.push (pushedStatus s.p)

/-- PLP (R283). -/
def handlePlp (s : State) : Except Fault State := do
  let (v, t) ← s.pop
  .ok (t.setP (pulledStatus v))

/-- CLC (R284). -/
def handleClc (s : State) : Except Fault State := .ok (s.setFlag .c false)
/-- SEC (R285). -/
def handleSec (s : State) : Except Fault State := .ok (s.setFlag .c true)
/-- CLI (R286). -/
def handleCli (s : State) : Except Fault State := .ok (s.setFlag .i false)
/-- SEI (R287). -/
def handleSei (s : State) : Except Fault State := .ok (s.setFlag .i true)
/-- CLD (R288). -/
def handleCld (s : State) : Except Fault State := .ok (s.setFlag .d false)
/-- SED (R289). -/
def handleSed (s : State) : Except Fault State := .ok (s.setFlag .d true)
/-- CLV (R290). -/
def handleClv (s : State) : Except Fault State := .ok (s.setFlag .v false)

/-- RTI (R291): the status, then PC, which gets no +1. -/
def handleRti (s : State) : Except Fault State := do
  let (v, t) ← s.pop
  let (target, u) ← (t.setP (pulledStatus v)).pop16
  .ok (u.setPc target)

/-- NOP (R292). -/
def handleNop (s : State) : Except Fault State := .ok s

/-- BRK (R295): the halt. -/
def handleBrk (s : State) : Except Fault State := .ok (s.setRs .halted)

/-! The meanings of the rows. -/

/-- PHA, opcode 0x48 (R280). -/
def execPha (s : State) : Host.Outcome State Fault Refusal :=
  outcome (handlePha s)

/-- PLA, opcode 0x68 (R281). -/
def execPla (s : State) : Host.Outcome State Fault Refusal :=
  outcome (handlePla s)

/-- PHP, opcode 0x08 (R282). -/
def execPhp (s : State) : Host.Outcome State Fault Refusal :=
  outcome (handlePhp s)

/-- PLP, opcode 0x28 (R283). -/
def execPlp (s : State) : Host.Outcome State Fault Refusal :=
  outcome (handlePlp s)

/-- CLC, opcode 0x18 (R284). -/
def execClc (s : State) : Host.Outcome State Fault Refusal :=
  outcome (handleClc s)

/-- SEC, opcode 0x38 (R285). -/
def execSec (s : State) : Host.Outcome State Fault Refusal :=
  outcome (handleSec s)

/-- CLI, opcode 0x58 (R286). -/
def execCli (s : State) : Host.Outcome State Fault Refusal :=
  outcome (handleCli s)

/-- SEI, opcode 0x78 (R287). -/
def execSei (s : State) : Host.Outcome State Fault Refusal :=
  outcome (handleSei s)

/-- CLD, opcode 0xD8 (R288). -/
def execCld (s : State) : Host.Outcome State Fault Refusal :=
  outcome (handleCld s)

/-- SED, opcode 0xF8 (R289). -/
def execSed (s : State) : Host.Outcome State Fault Refusal :=
  outcome (handleSed s)

/-- CLV, opcode 0xB8 (R290). -/
def execClv (s : State) : Host.Outcome State Fault Refusal :=
  outcome (handleClv s)

/-- RTI, opcode 0x40 (R291). -/
def execRti (s : State) : Host.Outcome State Fault Refusal :=
  outcome (handleRti s)

/-- NOP, opcode 0xEA (R292). -/
def execNop (s : State) : Host.Outcome State Fault Refusal :=
  outcome (handleNop s)

/-- BRK, opcode 0x00 (R295). -/
def execBrk (s : State) : Host.Outcome State Fault Refusal :=
  outcome (handleBrk s)

end Sys2Proof.Machine
end

