-- ==== Sys2Proof/Machine/Transfer.lean ====
section
/-! DEFINITION. Register transfers (42_transfer.md). -/

namespace Sys2Proof.Machine

/-- TAX (R160). -/
def handleTax (s : State) : Except Fault State := .ok ((s.setX s.a).setZN s.a)

/-- TAY (R161). -/
def handleTay (s : State) : Except Fault State := .ok ((s.setY s.a).setZN s.a)

/-- TXA (R162). -/
def handleTxa (s : State) : Except Fault State := .ok ((s.setA s.x).setZN s.x)

/-- TYA (R163). -/
def handleTya (s : State) : Except Fault State := .ok ((s.setA s.y).setZN s.y)

/-- TSX (R164). -/
def handleTsx (s : State) : Except Fault State := .ok ((s.setX s.sp).setZN s.sp)

/-- TXS (R165): it writes no flag. -/
def handleTxs (s : State) : Except Fault State := .ok (s.setSp s.x)

/-! The meanings of the rows. -/

/-- TAX, opcode 0xAA (R160). -/
def execTax (s : State) : Host.Outcome State Fault Refusal :=
  outcome (handleTax s)

/-- TAY, opcode 0xA8 (R161). -/
def execTay (s : State) : Host.Outcome State Fault Refusal :=
  outcome (handleTay s)

/-- TXA, opcode 0x8A (R162). -/
def execTxa (s : State) : Host.Outcome State Fault Refusal :=
  outcome (handleTxa s)

/-- TYA, opcode 0x98 (R163). -/
def execTya (s : State) : Host.Outcome State Fault Refusal :=
  outcome (handleTya s)

/-- TSX, opcode 0xBA (R164). -/
def execTsx (s : State) : Host.Outcome State Fault Refusal :=
  outcome (handleTsx s)

/-- TXS, opcode 0x9A (R165). -/
def execTxs (s : State) : Host.Outcome State Fault Refusal :=
  outcome (handleTxs s)

end Sys2Proof.Machine
end

