-- ==== Sys2Proof/Machine/Engine.lean ====
section
/-! DEFINITION. The fetch-decode-execute loop (40_engine.md R100 to R109, R126): the fetch, the opcode
table, the multiplex over opcode entries, the length skip, the observer, and the storage of a
program's bytes. -/

namespace Sys2Proof.Machine

/-! The multiplex over an opcode entry. -/

/-- The handler that R126 chooses for an entry with the mnemonic `m`: by the mnemonic, and by the code
for JMP and for the forms of the shifts and rotates. Halted is entered only by executing opcode 0x00
(R108; 10_state.md R30), so the halt is the handler of a BRK entry at that code alone. A code to which
this gives no handler is refused by name, and an entry that is not BRK at code 0x00 runs its own handler
(DESIGN CHOICE, log 9). -/
def handle (m : Mnemonic) (e : OpcodeEntry) (s : State) : Host.Outcome State Fault Refusal :=
  match m with
  | .lda => outcome (handleLda e s)
  | .ldx => outcome (handleLdx e s)
  | .ldy => outcome (handleLdy e s)
  | .sta => outcome (handleSta e s)
  | .stx => outcome (handleStx e s)
  | .sty => outcome (handleSty e s)
  | .tax => outcome (handleTax s)
  | .tay => outcome (handleTay s)
  | .txa => outcome (handleTxa s)
  | .tya => outcome (handleTya s)
  | .tsx => outcome (handleTsx s)
  | .txs => outcome (handleTxs s)
  | .inx => outcome (handleInx s)
  | .iny => outcome (handleIny s)
  | .dex => outcome (handleDex s)
  | .dey => outcome (handleDey s)
  | .inc => outcome (handleInc e s)
  | .dec => outcome (handleDec e s)
  | .asl =>
    match shiftFormOf e.code with
    | .acc => outcome (handleAslAcc s)
    | .mem => outcome (handleAslMem e s)
  | .lsr =>
    match shiftFormOf e.code with
    | .acc => outcome (handleLsrAcc s)
    | .mem => outcome (handleLsrMem e s)
  | .rol =>
    match shiftFormOf e.code with
    | .acc => outcome (handleRolAcc s)
    | .mem => outcome (handleRolMem e s)
  | .ror =>
    match shiftFormOf e.code with
    | .acc => outcome (handleRorAcc s)
    | .mem => outcome (handleRorMem e s)
  | .and => outcome (handleAnd e s)
  | .eor => outcome (handleEor e s)
  | .ora => outcome (handleOra e s)
  | .adc => outcome (handleAdc e s)
  | .sbc => outcome (handleSbc e s)
  | .cmp => outcome (handleCmp e s)
  | .cpx => outcome (handleCpx e s)
  | .cpy => outcome (handleCpy e s)
  | .bit => outcome (handleBit e s)
  | .bcc => outcome (handleBcc s)
  | .bcs => outcome (handleBcs s)
  | .beq => outcome (handleBeq s)
  | .bne => outcome (handleBne s)
  | .bpl => outcome (handleBpl s)
  | .bmi => outcome (handleBmi s)
  | .bvc => outcome (handleBvc s)
  | .bvs => outcome (handleBvs s)
  | .jmp =>
    if e.code = 0x4C then outcome (handleJmpAbs s)
    else if e.code = 0x6C then outcome (handleJmpInd s)
    else .refused (.noHandler e.code)
  | .jsr => outcome (handleJsr s)
  | .rts => outcome (handleRts s)
  | .pha => outcome (handlePha s)
  | .pla => outcome (handlePla s)
  | .php => outcome (handlePhp s)
  | .plp => outcome (handlePlp s)
  | .clc => outcome (handleClc s)
  | .sec => outcome (handleSec s)
  | .cli => outcome (handleCli s)
  | .sei => outcome (handleSei s)
  | .cld => outcome (handleCld s)
  | .sed => outcome (handleSed s)
  | .clv => outcome (handleClv s)
  | .rti => outcome (handleRti s)
  | .nop => outcome (handleNop s)
  | .brk => if e.code = 0x00 then outcome (handleBrk s) else .refused (.noHandler e.code)

/-- `Execute(e)` for an entry of any opcode table (R126). On the rows of R84 it is `exec`. A mnemonic that
is none of the 56 has no handler and is refused by name (DESIGN CHOICE, log 9). -/
def executeEntry (e : OpcodeEntry) (s : State) : Host.Outcome State Fault Refusal :=
  match Mnemonic.ofName e.mnemonic with
  | some m => handle m e s
  | none => .refused (.noHandler e.code)

/-! The opcode table. -/

/-- What `P_OPCODE_TABLE` holds at a byte (R105): no entry, a row of R84, or an entry of another table
(log 9). -/
inductive TableCell where
  | absent
  | row (i : Instr)
  | other (e : OpcodeEntry)
deriving DecidableEq, Repr

/-- `P_OPCODE_TABLE[opc]` (R105): the edits of the parameter first, then the table of R84. The code of
an entry is the byte it stands at, as the table is keyed by it (30_encoding.md R81), whatever number an
edit's record holds (DESIGN CHOICE, log 9). -/
def tableCell (edits : List (Byte × Option OpcodeEntry)) (opc : Byte) : TableCell :=
  match edits.lookup opc with
  | some (some e) => .other { e with code := opc }
  | some none => .absent
  | none =>
    match decodeOpcode opc with
    | some i => .row i
    | none => .absent

/-! The length skip. -/

/-- `HandlerWrotePC(e)` (R106), seen from the state before `Execute`: a taken branch, JMP, JSR, RTS or
RTI. -/
def handlerWrotePC (m : Mnemonic) (s : State) : Bool :=
  match m with
  | .bcc => condBcc s
  | .bcs => condBcs s
  | .beq => condBeq s
  | .bne => condBne s
  | .bpl => condBpl s
  | .bmi => condBmi s
  | .bvc => condBvc s
  | .bvs => condBvs s
  | .jmp | .jsr | .rts | .rti => true
  | .lda | .ldx | .ldy | .sta | .stx | .sty | .tax | .tay | .txa | .tya | .tsx | .txs
  | .inx | .iny | .dex | .dey | .inc | .dec | .asl | .lsr | .rol | .ror
  | .and | .eor | .ora | .adc | .sbc | .cmp | .cpx | .cpy | .bit
  | .pha | .pla | .php | .plp | .clc | .sec | .cli | .sei | .cld | .sed | .clv | .nop | .brk => false

/-- `SkipApplies(e, pc_before)` (R106), from the state before and the state after `Execute`. -/
def skipApplies (e : OpcodeEntry) (before after : State) : Bool :=
  match before.params.skipRule with
  | .valueCompare => after.pc == before.pc
  | .classBased =>
    match Mnemonic.ofName e.mnemonic with
    | some m => !handlerWrotePC m before
    | none => true

/-- PC after the operand bytes are skipped: `(PC + e.length - 1) mod 65536` (R101, R106). -/
def skippedPc (e : OpcodeEntry) (pc : Word) : Word := pc + BitVec.ofNat 16 e.length - 1

/-- The length skip (R106). -/
def lengthSkip (e : OpcodeEntry) (before after : State) : State :=
  if skipApplies e before after then after.setPc (skippedPc e after.pc) else after

/-! The observer. -/

/-- `Observer()` (R107; 70_reset_and_hazards.md R358): the bus writes at the front of the queue, each
under the rules of the bus. An empty queue is the identity observer (log 10). -/
def observe (s : State) : Except Fault State :=
  match s.observer with
  | [] => .ok s
  | ws :: rest => (s.setObserver rest).busWrites ws

/-! The loop. -/

/-- What follows `Execute` in a step (R101): nothing after the halt (R108) or a raise (R109); else the
length skip (R106) and the observer (R107). -/
def finishStep (e : OpcodeEntry) (before : State) :
    Host.Outcome State Fault Refusal → Host.Outcome State Fault Refusal
  | .next t => if t.rs = .halted then .next t else outcome (observe (lengthSkip e before t))
  | .fault f => .fault f
  | .refused r => .refused r

/-- The state `Execute` runs in: PC is past the opcode (R103), at the first operand byte. -/
def State.atOperand (s : State) : State := s.setPc (s.pc + 1)

/-- One iteration of the loop from the state Running (R101). -/
def engineStep (s : State) : Host.Outcome State Fault Refusal :=
  match s.busRead s.pc with
  | .error f => .fault f
  | .ok opc =>
    match tableCell s.params.tableEdits opc with
    | .absent => .fault (.unrecognizedOpcode opc s.pc)
    | .row i => finishStep i.entry s.atOperand (exec i s.atOperand)
    | .other e => finishStep e s.atOperand (executeEntry e s.atOperand)

/-- A step as the host asks for it: from Running one iteration (70_reset_and_hazards.md R356), from
Halted the run resumes at the current PC (R359; log 5), from Faulted there is none (log 4). -/
def hostStep (s : State) : Host.Outcome State Fault Refusal :=
  match s.rs with
  | .running => engineStep s
  | .halted => engineStep (s.setRs .running)
  | .faulted f => .refused (.noStepFromFaulted f)

/-! The bytes of a program. -/

/-- One byte placed in the storage its address decodes to (70_reset_and_hazards.md R354): the RAM
through its mask, or the PRG-ROM image. It is no bus write. -/
def State.placeByte (s : State) (addr : Word) (v : Byte) : State :=
  match region addr with
  | .ram => s.setRam (Memory.set s.ram (ramIndex addr) v)
  | .prg =>
    { s with params := { s.params with
        prg := Memory.set s.params.prg (prgIndex s.params.prgSize addr) v } }
  | .video | .unmapped => s

/-- Bytes placed at rising addresses, modulo 65536 (log 12). -/
def State.placeBytes (s : State) (addr : Word) : List Byte → State
  | [] => s
  | v :: vs => (s.placeByte addr v).placeBytes (addr + 1) vs

/-- An address that has storage: work RAM or PRG-ROM. -/
def hasStorage (addr : Word) : Bool := region addr == .ram || region addr == .prg

/-- The state with three bytes stored where the next step fetches (log 13). The run state is Running
and the opcode table is that of R84. Where an address of the three has no storage, PC moves to
0x0000. -/
def State.placeInstruction (s : State) (bytes : List Byte) : State :=
  let stored := hasStorage s.pc && hasStorage (s.pc + 1) && hasStorage (s.pc + 2)
  let t := if stored then s else s.setPc 0x0000
  let u := t.placeBytes t.pc bytes
  { u with rs := .running, params := { u.params with tableEdits := [] } }

end Sys2Proof.Machine
end

