-- ==== Sys2Proof/Machine/HostOps.lean ====
section
/-! DEFINITION. The host's operations on the machine (70_reset_and_hazards.md R350 to R360): reset,
launch, load, load_and_run, the state the host sees after a step, and run. -/

namespace Sys2Proof.Machine

/-- `reset()` (R350), which the host may call in Running and in Halted (R359). It changes neither RAM nor
the cartridge (R352). The vector is read from PRG-ROM (R351), which cannot raise. In Faulted it is refused:
there only a new launch continues (R359, decision D17; log 19). -/
def State.doReset (s : State) : Except Refusal State :=
  match s.rs with
  | .running | .halted =>
    .ok { s with
      a := 0x00
      x := 0x00
      y := 0x00
      sp := 0xFD
      p := 0x22
      pc := resetVector s.params.prgSize s.params.prg
      rs := .running }
  | .faulted f => .error (.noResetFromFaulted f)

/-- The accepted lengths of a PRG-ROM image (00_scope.md R8). -/
def prgSizeOf (n : Nat) : Option PrgSize :=
  if n = 0x4000 then some .k16 else if n = 0x8000 then some .k32 else none

/-- A launch state (R353): cartridge, bus and CPU constructed and reset, with the PRG-ROM image, the
mapper id and the launch contents of RAM as arguments (00_scope.md R8, R9, R12) and the other
parameters and the observer as given (log 16). -/
def launch (prg : List Byte) (mapper : Byte) (ramInit : List Byte) (params : Params)
    (observer : List (List (Word × Byte))) : Except Refusal State :=
  match prgSizeOf prg.length with
  | none => .error (.prgLength prg.length)
  | some size =>
    if mapper ≠ 0 then .error (.mapper mapper)
    else if ramInit.length ≠ ramBytes then .error (.ramLength ramInit.length)
    else State.doReset
      { State.reset with
        ram := Memory.ofBytes 0 ramInit
        params := { params with prgSize := size, prg := Memory.ofBytes 0 prg }
        observer := observer }

/-- The first of the addresses from `addr` on, `n` of them, that falls in 0x2000–0x7FFF. -/
def firstUnstored (addr : Word) : Nat → Option Word
  | 0 => none
  | n + 1 => if hasStorage addr then firstUnstored (addr + 1) n else some addr

/-- `load(program_bytes)` (R354): the bytes placed from `P_LOAD_ADDR` on, then the reset vector made to
read `P_LOAD_ADDR` (log 12). It is no bus write and raises nothing. A program with a byte in
0x2000–0x7FFF is refused. -/
def load (program : List Byte) (s : State) : Except Refusal State :=
  match firstUnstored s.params.loadAddr program.length with
  | some addr => .error (.loadRange addr)
  | none =>
    .ok ((s.placeBytes s.params.loadAddr program).placeBytes 0xFFFC
      [lowByte s.params.loadAddr, highByte s.params.loadAddr])

/-- The state the host sees after `step()` (R356): the next state, or the Faulted state of a raise
(60_exceptions.md R310). Where no step is defined the state stays. -/
def afterStep (s : State) : State :=
  match step s with
  | .next t => t
  | .fault f => s.enterFaulted f
  | .refused _ => s

/-- `run(observer)` (R357), for at most `fuel` steps (log 18): `step()` repeated while RS is Running. -/
def run : (fuel : Nat) → State → State
  | 0, s => s
  | fuel + 1, s => if (afterStep s).rs = .running then run fuel (afterStep s) else afterStep s

/-- `load_and_run(program_bytes)` (R355): load, reset, run. Its reset is refused in Faulted (log 19). -/
def loadAndRun (fuel : Nat) (program : List Byte) (s : State) : Except Refusal State := do
  let t ← load program s
  let u ← t.doReset
  .ok (run fuel u)

end Sys2Proof.Machine
end

