-- ==== Sys2Proof/WellFormed.lean ====
section
/-! DEFINITION. Which whole instructions and which opcode entries are well formed. -/

namespace Sys2Proof

/-- How many bytes an operand has, as a layout counts them (30_encoding.md R82). -/
def Operand.size : Operand → OperandSize
  | .none => .zero
  | .byte _ => .one
  | .word _ => .two

/-- A whole instruction has exactly the operand bytes of its row's layout (R82, R85). Every value of
an operand byte is allowed (R83). -/
def AsmInstr.wf (a : AsmInstr) : Bool := a.operand.size == a.instr.format.operandSize

/-- An opcode entry stands at its own code and its length is 1 to 3 (R80, R81). -/
def OpcodeEntry.wf (code : Byte) (e : OpcodeEntry) : Bool :=
  e.code == code && (1 ≤ e.length && e.length ≤ 3)

end Sys2Proof
end

