-- ==== Sys2Proof/Safety.lean ====
section
/-! DEFINITION. The terms in which claims speak of a sound state, of the end of a run, and of what an
instruction changes and leaves unchanged. -/

namespace Sys2Proof.Machine

/-- The two status bits that no run changes (10_state.md R29, R35): Break reads 0 and Break2 reads 1. -/
def StatusBitsFixed (s : State) : Prop := s.flag .b = false ∧ s.flag .b2 = true

/-- RAM and the PRG-ROM image are in canonical form and inside their sizes (10_state.md R31;
00_scope.md R8). -/
def MemoryCanonical (s : State) : Prop :=
  Memory.wf ramBytes s.ram = true ∧
    Memory.wf (prgBytes s.params.prgSize) s.params.prg = true

/-- The invariant of the machine. -/
def Inv (s : State) : Prop := StatusBitsFixed s ∧ MemoryCanonical s

/-- The domain on which 70_reset_and_hazards.md R353 defines the step (log 17). -/
def StepDomain (s : State) : Prop := s.rs = .running ∧ StatusBitsFixed s

/-- The end of a run (70_reset_and_hazards.md R364): a final state. -/
def Final (s : State) : Prop := s.rs = .halted

/-- The end of a run by an error (R364): a faulted state, never final. -/
def FaultedState (s : State) : Prop := ∃ f, s.rs = .faulted f

/-- The edits of the opcode table hold entries that stand at their own codes and have lengths 1 to 3
(30_encoding.md R80, R81). -/
def TableWellFormed (params : Params) : Bool :=
  params.tableEdits.all fun
    | (b, some e) => e.wf b
    | (_, none) => true

/-! What an instruction changes and leaves unchanged. -/

/-- The registers and the run state, as names for frames. -/
inductive RegName where
  | a | x | y | sp | pc | rs
deriving DecidableEq, Repr

/-- Every register but those named, every flag but those named, the parameters, the observer's queue
and the draw counter are in `t` what they are in `s`. -/
def KeepsAllBut (regs : List RegName) (flags : List Flag) (s t : State) : Prop :=
  (RegName.a ∉ regs → t.a = s.a) ∧ (RegName.x ∉ regs → t.x = s.x) ∧
  (RegName.y ∉ regs → t.y = s.y) ∧ (RegName.sp ∉ regs → t.sp = s.sp) ∧
  (RegName.pc ∉ regs → t.pc = s.pc) ∧ (RegName.rs ∉ regs → t.rs = s.rs) ∧
  (∀ f, f ∉ flags → t.flag f = s.flag f) ∧
  t.params = s.params ∧ t.observer = s.observer ∧ t.draw = s.draw

/-- Every bus read gives in `t` what it gives in `s`. -/
def MemoryKept (s t : State) : Prop := ∀ addr, t.busRead addr = s.busRead addr

/-- Every bus read gives in `t` what it gives in `s`, but at the addresses that name the work-RAM byte
`ea` names; where `ea` is no work-RAM address, at every address. -/
def MemoryKeptExcept (ea : Word) (s t : State) : Prop :=
  ∀ addr, sameRamByte ea addr = false → t.busRead addr = s.busRead addr

/-- Every address that names the work-RAM byte `ea` names reads as `v`; where `ea` is no work-RAM address,
this says nothing. -/
def MemoryHolds (ea : Word) (v : Byte) (t : State) : Prop :=
  ∀ addr, sameRamByte ea addr = true → t.busRead addr = .ok v

/-- An opcode byte decodes to a row, and the row has a mode (30_encoding.md R84). -/
def RowAt (i : Instr) (code : Byte) (mode : Mode) : Prop :=
  decodeOpcode code = some i ∧ i.entry.mode = mode

/-- An address of the video-register window. -/
def InVideoWindow (addr : Word) : Prop := 0x2000 ≤ addr.toNat ∧ addr.toNat ≤ 0x3FFF

/-- An address of the PRG-ROM window. -/
def InPrgWindow (addr : Word) : Prop := 0x8000 ≤ addr.toNat

/-- A row that reads the byte at its effective address and writes no memory: an operand byte that
raises, or an effective address in the video window, ends it with that error; else it completes, with
`effect` between the state, the byte read and the next state, and every byte of memory unchanged. -/
def ReadsOperand (i : Instr) (effect : State → Byte → State → Prop) : Prop :=
  ∀ s,
    (∀ f, effectiveAddress i.entry s = .error f → exec i s = .fault f) ∧
    (∀ ea, effectiveAddress i.entry s = .ok ea → InVideoWindow ea →
      exec i s = .fault (.unimplementedSubsystem ea .read)) ∧
    (∀ ea v, effectiveAddress i.entry s = .ok ea → s.busRead ea = .ok v →
      ∃ t, exec i s = .next t ∧ effect s v t ∧ MemoryKept s t)

/-- A row that stores a byte to its effective address and does not read it: an operand byte that
raises, the video window and PRG-ROM end it with their errors; else it completes, the byte at the
effective address, at each of its mirrors, is the one stored where that address is work RAM, every
other byte is unchanged, and so is every register and flag. What the memory reads as is said of canonical memories, which every
step keeps. -/
def StoresByte (i : Instr) (value : State → Byte) : Prop :=
  ∀ s,
    (∀ f, effectiveAddress i.entry s = .error f → exec i s = .fault f) ∧
    (∀ ea, effectiveAddress i.entry s = .ok ea →
      (InVideoWindow ea → exec i s = .fault (.unimplementedSubsystem ea .write)) ∧
      (InPrgWindow ea → exec i s = .fault (.illegalWrite ea (value s))) ∧
      (¬ InVideoWindow ea → ¬ InPrgWindow ea →
        ∃ t, exec i s = .next t ∧ KeepsAllBut [] [] s t ∧
          (MemoryCanonical s →
            MemoryHolds ea (value s) t ∧ MemoryKeptExcept ea s t)))

/-- A row that reads the byte `v` at its effective address and writes `result s v` there: an operand
byte that raises, and the video window at the read, and PRG-ROM at the write, end it with their errors;
else it completes, with `effect` between the state, the byte read and the next state, the byte at the
effective address, at each of its mirrors, is the result where that address is work RAM, and every
other byte is unchanged (said of canonical memories, which every step keeps). -/
def ModifiesByte (i : Instr) (result : State → Byte → Byte) (effect : State → Byte → State → Prop) :
    Prop :=
  ∀ s,
    (∀ f, effectiveAddress i.entry s = .error f → exec i s = .fault f) ∧
    (∀ ea, effectiveAddress i.entry s = .ok ea → InVideoWindow ea →
      exec i s = .fault (.unimplementedSubsystem ea .read)) ∧
    (∀ ea v, effectiveAddress i.entry s = .ok ea → s.busRead ea = .ok v →
      (InPrgWindow ea → exec i s = .fault (.illegalWrite ea (result s v))) ∧
      (¬ InPrgWindow ea →
        ∃ t, exec i s = .next t ∧ effect s v t ∧
          (MemoryCanonical s →
            MemoryHolds ea (result s v) t ∧ MemoryKeptExcept ea s t)))

/-- A row executed `n` times in a row, ending at the first that does not complete. -/
def execTimes (i : Instr) : (n : Nat) → State → Host.Outcome State Fault Refusal
  | 0, s => .next s
  | n + 1, s =>
    match exec i s with
    | .next t => execTimes i n t
    | .fault f => .fault f
    | .refused r => .refused r

end Sys2Proof.Machine
end

