-- ==== Sys2Proof/Certificates/Slice0/Obligations.lean ====
section
/-! DEFINITION. The statements about the model, for the provers. -/

open Sys2Proof Sys2Proof.Machine

/-! Encoding (30_encoding.md). -/

/-- Every well-formed whole instruction, with every operand value, decodes from its own bytes, whatever
follows them (R82, R83, R88). -/
def Obligations.EncodedInstructionDecodes : Prop :=
  ∀ (a : AsmInstr) (rest : List Byte), a.wf = true → decode (encode a ++ rest) = .ok (a, rest)

/-- Whatever the decoder reads is well formed and encodes to the bytes it was read from (R82, R83, R88). -/
def Obligations.DecodedBytesReencode : Prop :=
  ∀ (bytes rest : List Byte) (a : AsmInstr), decode bytes = .ok (a, rest) →
    a.wf = true ∧ encode a ++ rest = bytes

/-- Each row is reached by its own code and by no other byte (R84, R88). -/
def Obligations.RowIsReachedByItsCodeAlone : Prop :=
  ∀ (i : Instr) (b : Byte), decodeOpcode b = some i ↔ i.entry.code = b

/-- Words written out from the table's bits, one of each family, decode to their instructions (R82, R84). -/
def Obligations.WrittenWordsDecode : Prop :=
  decode [0b10101001, 0x05] = .ok (⟨.ldaImm, .byte 0x05⟩, []) ∧
  decode [0b10001101, 0x00, 0x85] = .ok (⟨.staAbs, .word 0x8500⟩, []) ∧
  decode [0b10101010] = .ok (⟨.tax, .none⟩, []) ∧
  decode [0b11110110, 0xF0] = .ok (⟨.incZpX, .byte 0xF0⟩, []) ∧
  decode [0b01101010] = .ok (⟨.rorAcc, .none⟩, []) ∧
  decode [0b01110001, 0x20] = .ok (⟨.adcIndY, .byte 0x20⟩, []) ∧
  decode [0b00100100, 0x10] = .ok (⟨.bitZp, .byte 0x10⟩, []) ∧
  decode [0b11010000, 0xFA] = .ok (⟨.bne, .byte 0xFA⟩, []) ∧
  decode [0b01101100, 0x20, 0x01] = .ok (⟨.jmpInd, .word 0x0120⟩, []) ∧
  decode [0b00100000, 0x10, 0x06] = .ok (⟨.jsr, .word 0x0610⟩, []) ∧
  decode [0b01000000] = .ok (⟨.rti, .none⟩, []) ∧
  decode [0b11111000] = .ok (⟨.sed, .none⟩, [])

/-- The 105 bytes of R86 (general knowledge by the spec's mark, log 11) are exactly those without a row,
and fetching one raises UnrecognizedOpcode with the byte and the PC at fetch, every register and memory
byte as it was (R86, 60_exceptions.md R314). -/
def Obligations.UnassignedOpcodeRaises : Prop :=
  let unassigned : List Byte :=
    [0x02, 0x03, 0x04, 0x07, 0x0B, 0x0C, 0x0F, 0x12, 0x13, 0x14, 0x17, 0x1A, 0x1B, 0x1C, 0x1F, 0x22,
      0x23, 0x27, 0x2B, 0x2F, 0x32, 0x33, 0x34, 0x37, 0x3A, 0x3B, 0x3C, 0x3F] ++
    [0x42, 0x43, 0x44, 0x47, 0x4B, 0x4F, 0x52, 0x53, 0x54, 0x57, 0x5A, 0x5B, 0x5C, 0x5F,
      0x62, 0x63, 0x64, 0x67, 0x6B, 0x6F, 0x72, 0x73, 0x74, 0x77, 0x7A, 0x7B, 0x7C, 0x7F] ++
    [0x80, 0x82, 0x83, 0x87, 0x89, 0x8B, 0x8F, 0x92, 0x93, 0x97, 0x9B, 0x9C, 0x9E, 0x9F,
      0xA3, 0xA7, 0xAB, 0xAF, 0xB2, 0xB3, 0xB7, 0xBB, 0xBF] ++
    [0xC2, 0xC3, 0xC7, 0xCB, 0xCF, 0xD2, 0xD3, 0xD4, 0xD7, 0xDA, 0xDB, 0xDC, 0xDF,
      0xE2, 0xE3, 0xE7, 0xEB, 0xEF, 0xF2, 0xF3, 0xF4, 0xF7, 0xFA, 0xFB, 0xFC, 0xFF]
  (∀ b : Byte, decodeOpcode b = none ↔ b ∈ unassigned) ∧
  ∀ (s : State) (b : Byte), s.rs = .running → s.params.tableEdits = [] → b ∈ unassigned →
    s.busRead s.pc = .ok b →
    step s = .fault (.unrecognizedOpcode b s.pc) ∧
      afterStep s = { s with rs := .faulted (.unrecognizedOpcode b s.pc) }

/-! The engine (40_engine.md). -/

/-- Under any opcode table, a byte with no entry raises UnrecognizedOpcode with the byte and the PC at
fetch, and the state is what it was before the step but for RS (R105). -/
def Obligations.MissingEntryLeavesTheStateIntact : Prop :=
  ∀ (s : State) (b : Byte), s.rs = .running → s.busRead s.pc = .ok b →
    ((s.params.tableEdits.lookup b = none ∧ decodeOpcode b = none) ∨
      s.params.tableEdits.lookup b = some none) →
    step s = .fault (.unrecognizedOpcode b s.pc) ∧
      afterStep s = { s with rs := .faulted (.unrecognizedOpcode b s.pc) }

/-- When the opcode table has an entry at the byte at PC, the step executes it with PC past the opcode: a row
of R84 by its `exec`, an entry of another P_OPCODE_TABLE, whose code is that byte, by the multiplex of R126.
Then a fault or a halt ends it, a refusal comes only of an entry of another table to which R126 gives no
handler (log 9), and any other next state gets the length skip of R106 under its parameter and the bus
writes at the front of the observer's queue (40_engine.md R101 to R109, R126, 70_reset_and_hazards.md R358;
the queue is the model's form of the observer, decision D16, log 10). From Halted the same step runs (R359;
decision D17, log 5). -/
def Obligations.StepRunsTheDecodedInstruction : Prop :=
  ∀ (s : State) (b : Byte) (e : OpcodeEntry) (o : Host.Outcome State Fault Refusal),
    (s.rs = .running ∨ s.rs = .halted) → s.busRead s.pc = .ok b →
    let s₁ := { s with pc := s.pc + 1, rs := .running }
    ((s.params.tableEdits.lookup b = none ∧ ∃ i, decodeOpcode b = some i ∧ e = i.entry ∧ o = exec i s₁) ∨
      (∃ e', s.params.tableEdits.lookup b = some (some e') ∧ e = { e' with code := b } ∧
        o = executeEntry e s₁)) →
    (∀ f, o = .fault f → step s = .fault f) ∧
    (∀ r, o = .refused r → step s = .refused r ∧ r = .noHandler b ∧
      (Mnemonic.ofName e.mnemonic = none ∨ (e.mnemonic = "JMP" ∧ b ≠ 0x4C ∧ b ≠ 0x6C) ∨
        (e.mnemonic = "BRK" ∧ b ≠ 0x00))) ∧
    (∀ t, o = .next t → t.rs = .halted → step s = .next t) ∧
    (∀ t, o = .next t → t.rs ≠ .halted →
      let skips := (s.params.skipRule = .valueCompare ∧ t.pc = s.pc + 1) ∨
        (s.params.skipRule = .classBased ∧
          ∀ m, Mnemonic.ofName e.mnemonic = some m → handlerWrotePC m s₁ = false)
      ∃ u, ((skips → u = { t with pc := t.pc + BitVec.ofNat 16 e.length - 1 }) ∧
          (¬ skips → u = t)) ∧
        (u.observer = [] → step s = .next u) ∧
        (∀ ws rest, u.observer = ws :: rest →
          step s = outcome (({ u with observer := rest } : State).busWrites ws)))

/-- The two settings of P_SKIP_RULE on the corner they differ on (R106, 46_control.md R250, R259, R261): a
taken branch with offset 0xFF ends after its offset byte under VALUE_COMPARE and at it under CLASS_BASED,
and a JMP or JSR whose target is its own operand ends after its operand under VALUE_COMPARE and at it
under CLASS_BASED. The conditions of the branches are the spec's decision D19 (PRESUMED in log 11). -/
def Obligations.PcWriteOfItsOwnValueMeetsTheSkipRule : Prop :=
  (∀ (s : State) (i : Instr) (f : Flag) (v : Bool),
    (i, f, v) ∈ [(Instr.bcc, Flag.c, false), (.bcs, .c, true), (.beq, .z, true), (.bne, .z, false),
      (.bpl, .n, false), (.bmi, .n, true), (.bvc, .v, false), (.bvs, .v, true)] →
    s.rs = .running → s.params.tableEdits = [] → s.observer = [] →
    s.busRead s.pc = .ok i.entry.code → s.busRead (s.pc + 1) = .ok 0xFF → s.flag f = v →
    (s.params.skipRule = .valueCompare → step s = .next { s with pc := s.pc + 2 }) ∧
    (s.params.skipRule = .classBased → step s = .next { s with pc := s.pc + 1 })) ∧
  (∀ (s t : State) (i : Instr), i ∈ [Instr.jmpAbs, .jmpInd, .jsr] →
    s.rs = .running → s.params.tableEdits = [] → s.observer = [] →
    s.busRead s.pc = .ok i.entry.code →
    exec i { s with pc := s.pc + 1 } = .next t → t.pc = s.pc + 1 →
    (s.params.skipRule = .valueCompare → step s = .next { t with pc := s.pc + 3 }) ∧
    (s.params.skipRule = .classBased → step s = .next t))

/-- The length skip follows an instruction that wrote no PC and no other, under both settings of
P_SKIP_RULE (R106). An instruction that is no branch, jump, call, return or halt moves PC past its own
bytes; a branch not taken ends after its offset byte, whatever lies there, with nothing else changed
(46_control.md R250; the conditions are decision D19, log 11); and a PC that a branch, jump, call or
return wrote elsewhere stays. -/
def Obligations.StraightLineStepAdvancesByLength : Prop :=
  (∀ (s t : State) (b : Byte) (i : Instr),
    i.mnemonic ∉ [Mnemonic.bcc, .bcs, .beq, .bne, .bpl, .bmi, .bvc, .bvs, .jmp, .jsr, .rts, .rti,
      .brk] →
    s.rs = .running → s.params.tableEdits = [] →
    s.busRead s.pc = .ok b → decodeOpcode b = some i → step s = .next t →
    t.pc = s.pc + BitVec.ofNat 16 i.entry.length) ∧
  (∀ (s : State) (i : Instr) (f : Flag) (v : Bool),
    (i, f, v) ∈ [(Instr.bcc, Flag.c, false), (.bcs, .c, true), (.beq, .z, true), (.bne, .z, false),
      (.bpl, .n, false), (.bmi, .n, true), (.bvc, .v, false), (.bvs, .v, true)] →
    s.rs = .running → s.params.tableEdits = [] → s.observer = [] →
    s.busRead s.pc = .ok i.entry.code → s.flag f ≠ v → step s = .next { s with pc := s.pc + 2 }) ∧
  (∀ (s t : State) (i : Instr),
    i ∈ [Instr.bcc, .bcs, .beq, .bne, .bpl, .bmi, .bvc, .bvs, .jmpAbs, .jmpInd, .jsr, .rts, .rti] →
    s.rs = .running → s.params.tableEdits = [] → s.observer = [] →
    s.busRead s.pc = .ok i.entry.code →
    exec i { s with pc := s.pc + 1 } = .next t → t.pc ≠ s.pc + 1 → step s = .next t)

/-- A fetch from the video window raises, a fetch from the unmapped region halts, and operand bytes there
read 0 (20_memory.md R71). -/
def Obligations.FetchOutsideRamAndRom : Prop :=
  ∀ s : State, s.rs = .running →
    (InVideoWindow s.pc → step s = .fault (.unimplementedSubsystem s.pc .read)) ∧
    (0x4000 ≤ s.pc.toNat → s.pc.toNat ≤ 0x7FFF → s.params.tableEdits = [] →
      step s = .next { s with pc := s.pc + 1, rs := .halted }) ∧
    (∀ addr : Word, 0x4000 ≤ addr.toNat → addr.toNat ≤ 0x7FFF → s.busRead addr = .ok 0x00)

/-- Executing opcode 0x00 ends the step in Halted with PC at the byte's address plus 1 and nothing else
changed, under any opcode table that has BRK there, and under any opcode table whatever no other opcode
reaches Halted (R108, 10_state.md R30; that another entry at 0x00 runs its own handler is log 9). It speaks
of steps from Running, and of steps from Halted, which resume (70_reset_and_hazards.md R359; decision D17,
log 5). -/
def Obligations.HaltIsReachedByOpcodeZeroAlone : Prop :=
  ∀ s : State, s.rs = .running ∨ s.rs = .halted →
    ((s.params.tableEdits.lookup 0x00 = none ∨
        ∃ e, s.params.tableEdits.lookup 0x00 = some (some e) ∧ e.mnemonic = "BRK") →
      s.busRead s.pc = .ok 0x00 → step s = .next { s with pc := s.pc + 1, rs := .halted }) ∧
    (∀ t, step s = .next t → t.rs = .halted → s.busRead s.pc = .ok 0x00)

/-- A step from Running, with the table of R84, completes or raises one of three errors: UnrecognizedOpcode
with the PC at fetch, UnimplementedSubsystem with an address of the video window, or IllegalWrite with an
address of PRG-ROM (60_exceptions.md R310 to R315). -/
def Obligations.StepCompletesOrRaisesOneOfThreeErrors : Prop :=
  ∀ s : State, s.rs = .running → s.params.tableEdits = [] →
    (∃ t, step s = .next t) ∨
    (∃ b, s.busRead s.pc = .ok b ∧ decodeOpcode b = none ∧
      step s = .fault (.unrecognizedOpcode b s.pc)) ∨
    (∃ addr access, InVideoWindow addr ∧ step s = .fault (.unimplementedSubsystem addr access)) ∨
    (∃ addr v, InPrgWindow addr ∧ step s = .fault (.illegalWrite addr v))

/-- From Halted a step resumes at the current PC, and from Faulted there is none (70_reset_and_hazards.md
R359; the reading is decision D17 of the spec, logs 4 and 5). -/
def Obligations.StepFromHaltedResumesAndFromFaultedIsNone : Prop :=
  ∀ s : State,
    (s.rs = .halted → step s = step { s with rs := .running }) ∧
    (∀ f, s.rs = .faulted f → step s = .refused (.noStepFromFaulted f))

/-- The observer's bus writes land after the length skip, in order and under the rules of the bus, and not
after a halt or a raise (40_engine.md R107, 70_reset_and_hazards.md R358; decision D16; the queue is the
model's form of the observer, log 10). Whatever the instruction, the step is the step without an
observer, then the writes at the front of the queue, and it changes nothing but work RAM and the queue
beyond that step. After a NOP, whose observer stores one byte, it is that store's result. -/
def Obligations.ObserverWritesTheBusAfterTheStep : Prop :=
  (∀ (s : State) (ws : List (Word × Byte)) (rest : List (List (Word × Byte))),
    s.rs = .running → s.params.tableEdits = [] → s.observer = ws :: rest →
    let quiet : State := { s with observer := [] }
    (∀ f, step quiet = .fault f → step s = .fault f) ∧
    (∀ t, step quiet = .next t → t.rs = .halted → step s = .next { t with observer := s.observer }) ∧
    (∀ t, step quiet = .next t → t.rs ≠ .halted →
      step s = outcome (({ t with observer := rest } : State).busWrites ws) ∧
      (∀ u, step s = .next u → u = { t with ram := u.ram, observer := rest }))) ∧
  (∀ (s : State) (addr : Word) (v : Byte) (ws : List (Word × Byte)),
    s.busWrites [] = .ok s ∧
    (∀ f, s.busWrite addr v = .error f → s.busWrites ((addr, v) :: ws) = .error f) ∧
    (∀ t, s.busWrite addr v = .ok t → s.busWrites ((addr, v) :: ws) = t.busWrites ws)) ∧
  (∀ (s : State) (addr : Word) (v : Byte) (rest : List (List (Word × Byte))),
    s.rs = .running → s.params.tableEdits = [] → s.busRead s.pc = .ok 0xEA →
    s.observer = [(addr, v)] :: rest →
    (∀ f, s.busWrite addr v = .error f → step s = .fault f) ∧
    (∀ t, s.busWrite addr v = .ok t → step s = .next { t with pc := s.pc + 1, observer := rest }))

/-- The multiplex over an opcode entry runs a row of the table as `exec` runs the row (R126). -/
def Obligations.MultiplexRunsTheRow : Prop :=
  ∀ (i : Instr) (s : State), executeEntry i.entry s = exec i s

/-- No instruction's effect depends on the entry's cycle count (30_encoding.md R81, 70_reset_and_hazards.md
R363). -/
def Obligations.CycleCountIsReadByNothing : Prop :=
  ∀ (e : OpcodeEntry) (n : Int) (s : State), executeEntry { e with cycles := n } s = executeEntry e s

/-! The resolver (40_engine.md section 3). -/

/-- Every resolving mode's effective address, written as arithmetic modulo 256 and 65536 (R111 to R119). The
second operand byte is read at the address after the first modulo 65536, so that it wraps at 0xFFFF: that
is the spec's decision D1 (20_memory.md R58, log 11), not those rules. -/
def Obligations.ResolverComputesEveryMode : Prop :=
  ∀ (e : OpcodeEntry) (s : State),
    let page0 : Nat → Nat := fun k => (Memory.get s.ram (k % 256)).toNat
    (e.mode = .immediate → effectiveAddress e s = .ok s.pc) ∧
    (∀ zp, s.busRead s.pc = .ok zp →
      (e.mode = .zeroPage → effectiveAddress e s = .ok (BitVec.ofNat 16 zp.toNat)) ∧
      (e.mode = .zeroPageX →
        effectiveAddress e s = .ok (BitVec.ofNat 16 ((zp.toNat + s.x.toNat) % 256))) ∧
      (e.mode = .zeroPageY →
        effectiveAddress e s = .ok (BitVec.ofNat 16 ((zp.toNat + s.y.toNat) % 256))) ∧
      (e.mode = .indirectX →
        effectiveAddress e s = .ok (BitVec.ofNat 16
          (page0 (zp.toNat + s.x.toNat) + 256 * page0 (zp.toNat + s.x.toNat + 1)))) ∧
      (e.mode = .indirectY →
        effectiveAddress e s = .ok (BitVec.ofNat 16
          ((page0 zp.toNat + 256 * page0 (zp.toNat + 1) + s.y.toNat) % 65536)))) ∧
    (∀ lo hi, s.busRead s.pc = .ok lo → s.busRead (s.pc + 1) = .ok hi →
      (e.mode = .absolute → effectiveAddress e s = .ok (BitVec.ofNat 16 (lo.toNat + 256 * hi.toNat))) ∧
      (e.mode = .absoluteX →
        effectiveAddress e s =
          .ok (BitVec.ofNat 16 ((lo.toNat + 256 * hi.toNat + s.x.toNat) % 65536))) ∧
      (e.mode = .absoluteY →
        effectiveAddress e s =
          .ok (BitVec.ofNat 16 ((lo.toNat + 256 * hi.toNat + s.y.toNat) % 65536))))

/-- Resolving NoneAddressing raises UnsupportedAddressingMode with the opcode and the mode. With the default
table no instruction raises it; under a table that pairs a resolving handler with NoneAddressing at a byte,
the step that fetches the byte raises it with that byte (R124, 60_exceptions.md R315; that a shift or rotate
under a code with low nibble 0xA resolves nothing is DEDUCED in log 9). -/
def Obligations.NoneAddressingIsUnsupported : Prop :=
  (∀ (e : OpcodeEntry) (s : State), e.mode = .noneAddressing →
    effectiveAddress e s = .error (.unsupportedAddressingMode e.code .noneAddressing)) ∧
  (∀ (i : Instr) (s : State) (op : Byte) (m : Mode),
    exec i s ≠ .fault (.unsupportedAddressingMode op m)) ∧
  (∀ (s : State) (b : Byte) (e : OpcodeEntry) (m : Mnemonic),
    s.rs = .running → s.busRead s.pc = .ok b → s.params.tableEdits.lookup b = some (some e) →
    e.mnemonic = m.name → e.mode = .noneAddressing →
    m ∈ [Mnemonic.lda, .ldx, .ldy, .sta, .stx, .sty, .inc, .dec, .and, .eor, .ora, .adc, .sbc,
        .cmp, .cpx, .cpy, .bit] ∨
      (m ∈ [Mnemonic.asl, .lsr, .rol, .ror] ∧ b.toNat % 16 ≠ 10) →
    step s = .fault (.unsupportedAddressingMode b .noneAddressing))

/-- With a resolving mode the resolver raises for an operand byte in the video window, with that byte's
address, and for nothing else; with Immediate it reads no operand byte and does not raise (R110, R119,
41_load_store.md, its opening; 60_exceptions.md R313). -/
def Obligations.ResolverRaisesOnlyForOperandBytes : Prop :=
  ∀ (e : OpcodeEntry) (s : State) (f : Fault), e.mode ≠ .noneAddressing →
    (effectiveAddress e s = .error f ↔
      e.mode ≠ .immediate ∧
        ((InVideoWindow s.pc ∧ f = .unimplementedSubsystem s.pc .read) ∨
          (e.mode ∈ [Mode.absolute, .absoluteX, .absoluteY] ∧ ¬ InVideoWindow s.pc ∧
            InVideoWindow (s.pc + 1) ∧ f = .unimplementedSubsystem (s.pc + 1) .read)))

/-! The bus (20_memory.md). -/

/-- The bus read, region by region (R52, with R54's mask and R56's two image sizes as arithmetic). -/
def Obligations.BusReadByRegion : Prop :=
  ∀ (s : State) (addr : Word),
    (addr.toNat ≤ 0x1FFF → s.busRead addr = .ok (Memory.get s.ram (addr.toNat % 0x800))) ∧
    (0x2000 ≤ addr.toNat → addr.toNat ≤ 0x3FFF →
      s.busRead addr = .error (.unimplementedSubsystem addr .read)) ∧
    (0x4000 ≤ addr.toNat → addr.toNat ≤ 0x7FFF → s.busRead addr = .ok 0x00) ∧
    (0x8000 ≤ addr.toNat →
      (s.params.prgSize = .k16 →
        s.busRead addr = .ok (Memory.get s.params.prg ((addr.toNat - 0x8000) % 0x4000))) ∧
      (s.params.prgSize = .k32 →
        s.busRead addr = .ok (Memory.get s.params.prg (addr.toNat - 0x8000))))

/-- The bus write, region by region (R53; that a raising write changes nothing is decision D14). -/
def Obligations.BusWriteByRegion : Prop :=
  ∀ (s : State) (addr : Word) (v : Byte),
    (addr.toNat ≤ 0x1FFF →
      s.busWrite addr v = .ok { s with ram := Memory.set s.ram (addr.toNat % 0x800) v }) ∧
    (0x2000 ≤ addr.toNat → addr.toNat ≤ 0x3FFF →
      s.busWrite addr v = .error (.unimplementedSubsystem addr .write)) ∧
    (0x4000 ≤ addr.toNat → addr.toNat ≤ 0x7FFF → s.busWrite addr v = .ok s) ∧
    (0x8000 ≤ addr.toNat → s.busWrite addr v = .error (.illegalWrite addr v))

/-- The four addresses a, a+0x800, a+0x1000, a+0x1800 read and write one byte of work RAM (R54). -/
def Obligations.RamIsMirroredFourTimes : Prop :=
  ∀ (s : State) (a k : Nat) (v : Byte), a < 0x800 → k < 4 →
    s.busRead (BitVec.ofNat 16 (a + k * 0x800)) = .ok (Memory.get s.ram a) ∧
    s.busWrite (BitVec.ofNat 16 (a + k * 0x800)) v = .ok { s with ram := Memory.set s.ram a v }

/-- A read returns the byte most recently written to the same storage through any alias, and other
addresses read as before (R66); the write keeps the memory canonical. -/
def Obligations.ReadReturnsTheByteWritten : Prop :=
  ∀ (s t : State) (addr : Word) (v : Byte), MemoryCanonical s → s.busWrite addr v = .ok t →
    MemoryCanonical t ∧
    ∀ addr' : Word, t.busRead addr' =
      if addr.toNat ≤ 0x1FFF ∧ addr'.toNat ≤ 0x1FFF ∧ addr.toNat % 0x800 = addr'.toNat % 0x800
      then .ok v else s.busRead addr'

/-- 16-bit reads and writes are two byte accesses, the low byte at the lower address, the second address
modulo 65536 (R58, R59; the wrap is decision D1, log 11). A read raises the error of its first byte, else
that of its second (40_engine.md R127, 60_exceptions.md R319; decision D23, log 11), and so does a write,
whose second byte is not tried after the first raised. -/
def Obligations.SixteenBitAccessIsTwoBytes : Prop :=
  ∀ (s : State) (addr : Word),
    let next : Word := BitVec.ofNat 16 ((addr.toNat + 1) % 65536)
    (∀ lo hi, s.busRead addr = .ok lo → s.busRead next = .ok hi →
      s.read16 addr = .ok (BitVec.ofNat 16 (lo.toNat + 256 * hi.toNat))) ∧
    (∀ f, s.busRead addr = .error f → s.read16 addr = .error f) ∧
    (∀ lo f, s.busRead addr = .ok lo → s.busRead next = .error f → s.read16 addr = .error f) ∧
    (∀ v : Word,
      let lo : Byte := BitVec.ofNat 8 (v.toNat % 256)
      let hi : Byte := BitVec.ofNat 8 (v.toNat / 256)
      (∀ t u : State, s.busWrite addr lo = .ok t → t.busWrite next hi = .ok u →
        s.write16 addr v = .ok u) ∧
      (∀ f, s.busWrite addr lo = .error f → s.write16 addr v = .error f) ∧
      (∀ (t : State) (f : Fault), s.busWrite addr lo = .ok t → t.busWrite next hi = .error f →
        s.write16 addr v = .error f))

/-! Invariants of the whole machine. -/

/-- Every step keeps the invariant: Break reads 0 and Break2 reads 1 (10_state.md R29, R35), and RAM and the
PRG-ROM image stay canonical and inside their sizes (R31). -/
def Obligations.StepKeepsTheInvariant : Prop :=
  ∀ s t : State, Inv s → step s = .next t → Inv t

/-- The state after reset has the invariant (10_state.md R36; its memories are those of logs 6 and 7). -/
def Obligations.ResetHasTheInvariant : Prop := Inv State.reset

/-- No step changes the PRG-ROM image or any other parameter (10_state.md R31, 20_memory.md R56, R69). -/
def Obligations.StepKeepsTheCartridge : Prop :=
  ∀ s t : State, step s = .next t → t.params = s.params

/-- An instruction changes A, X, Y, SP, PC and RS only if it is one of the writers of that register
(10_state.md R21 to R23, R32, R33, R30). -/
def Obligations.RegistersChangeOnlyByTheirWriters : Prop :=
  ∀ (i : Instr) (s t : State), exec i s = .next t →
    (i.mnemonic ∉ [Mnemonic.lda, .txa, .tya, .pla, .and, .eor, .ora, .adc, .sbc] →
      i ∉ [Instr.aslAcc, .lsrAcc, .rolAcc, .rorAcc] → t.a = s.a) ∧
    (i.mnemonic ∉ [Mnemonic.ldx, .tax, .tsx, .inx, .dex] → t.x = s.x) ∧
    (i.mnemonic ∉ [Mnemonic.ldy, .tay, .iny, .dey] → t.y = s.y) ∧
    (i.mnemonic ∉ [Mnemonic.txs, .pha, .php, .pla, .plp, .jsr, .rts, .rti] → t.sp = s.sp) ∧
    (i.mnemonic ∉ [Mnemonic.bcc, .bcs, .beq, .bne, .bpl, .bmi, .bvc, .bvs, .jmp, .jsr, .rts, .rti] →
      t.pc = s.pc) ∧
    (i.mnemonic ≠ .brk → t.rs = s.rs)

/-- An instruction changes a flag only if it is one of the flag's writers (10_state.md R25 to R28, R38,
R39). -/
def Obligations.FlagsChangeOnlyByTheirWriters : Prop :=
  ∀ (i : Instr) (s t : State), exec i s = .next t →
    (i.mnemonic ∉ [Mnemonic.adc, .sbc, .cmp, .cpx, .cpy, .asl, .lsr, .rol, .ror, .clc, .sec, .plp,
      .rti] → t.flag .c = s.flag .c) ∧
    (i.mnemonic ∉ [Mnemonic.lda, .ldx, .ldy, .tax, .tay, .txa, .tya, .tsx, .inx, .iny, .dex, .dey,
      .inc, .dec, .asl, .lsr, .rol, .ror, .and, .eor, .ora, .adc, .sbc, .cmp, .cpx, .cpy, .bit, .pla, .plp,
      .rti] → t.flag .z = s.flag .z ∧ t.flag .n = s.flag .n) ∧
    (i.mnemonic ∉ [Mnemonic.cli, .sei, .plp, .rti] → t.flag .i = s.flag .i) ∧
    (i.mnemonic ∉ [Mnemonic.cld, .sed, .plp, .rti] → t.flag .d = s.flag .d) ∧
    (i.mnemonic ∉ [Mnemonic.adc, .sbc, .bit, .clv, .plp, .rti] → t.flag .v = s.flag .v) ∧
    (i.mnemonic ∉ [Mnemonic.plp, .rti] → t.flag .b = s.flag .b ∧ t.flag .b2 = s.flag .b2)

/-- The flags I and D steer nothing: but for PHP, PLP, RTI and the instructions that write the flag, an
instruction does the same with the flag at either value, and keeps it (10_state.md R27 for I). That ADC
and SBC are binary whatever D holds is the spec's decision D18 (10_state.md R28, 45_logic_arith.md R223;
PRESUMED in log 11). -/
def Obligations.InterruptAndDecimalFlagsSteerNothing : Prop :=
  ∀ (i : Instr) (s : State) (f : Flag) (b : Bool),
    (f = .i ∧ i.mnemonic ∉ [Mnemonic.cli, .sei, .php, .plp, .rti]) ∨
      (f = .d ∧ i.mnemonic ∉ [Mnemonic.cld, .sed, .php, .plp, .rti]) →
    (∀ t, exec i s = .next t → exec i (s.setFlag f b) = .next (t.setFlag f b)) ∧
    (∀ g, exec i s = .fault g → exec i (s.setFlag f b) = .fault g)

/-! Reset, launch and load (70_reset_and_hazards.md), and the end of a run. -/

/-- What reset() gives from Running and from Halted (R350 to R352, 10_state.md R36; that RS is Running is
decision D17, that RAM is kept decision D10), that it is refused in Faulted (R359, decision D17; the refusal
is log 19), and that the machine right after reset has these values. -/
def Obligations.ResetGivesTheStatedValues : Prop :=
  (∀ s : State, s.rs = .running ∨ s.rs = .halted →
    ∃ t, s.doReset = .ok t ∧
      t.a = 0x00 ∧ t.x = 0x00 ∧ t.y = 0x00 ∧ t.sp = 0xFD ∧ t.p = 0x22 ∧ t.rs = .running ∧
      t.read16 0xFFFC = .ok t.pc ∧ t.ram = s.ram ∧ t.params = s.params) ∧
  (∀ (s : State) (f : Fault), s.rs = .faulted f → s.doReset = .error (.noResetFromFaulted f)) ∧
  State.reset.doReset = .ok State.reset

/-- A launch with a 16 or 32 KiB image, mapper 0 and 2048 bytes of RAM is the state right after reset with
those memories: the registers have the values of reset, PC the vector of the image, the reads give the
images' bytes, the other parameters and the observer are those given, and the invariant holds. Any other
image length, mapper or number of RAM bytes is refused (70_reset_and_hazards.md R350, R351, R353,
00_scope.md R8, R9, R12; decisions D9 and D17; which refusal is named first is log 16). -/
def Obligations.LaunchAcceptsMapperZeroImages : Prop :=
  ∀ (prg ram : List Byte) (mapper : Byte) (params : Params) (obs : List (List (Word × Byte))),
    (prg.length ≠ 0x4000 → prg.length ≠ 0x8000 →
      launch prg mapper ram params obs = .error (.prgLength prg.length)) ∧
    (prg.length = 0x4000 ∨ prg.length = 0x8000 → mapper ≠ 0 →
      launch prg mapper ram params obs = .error (.mapper mapper)) ∧
    (prg.length = 0x4000 ∨ prg.length = 0x8000 → ram.length ≠ 0x800 →
      launch prg 0 ram params obs = .error (.ramLength ram.length)) ∧
    (prg.length = 0x4000 ∨ prg.length = 0x8000 → ram.length = 0x800 →
      ∃ s, launch prg 0 ram params obs = .ok s ∧ Inv s ∧ s.rs = .running ∧ s.observer = obs ∧
        s.a = 0x00 ∧ s.x = 0x00 ∧ s.y = 0x00 ∧ s.sp = 0xFD ∧ s.p = 0x22 ∧
        s.pc = BitVec.ofNat 16 ((prg.getD (prg.length - 4) 0).toNat +
          256 * (prg.getD (prg.length - 3) 0).toNat) ∧
        s.params.skipRule = params.skipRule ∧ s.params.rotZ = params.rotZ ∧
        s.params.tableEdits = params.tableEdits ∧ s.params.loadAddr = params.loadAddr ∧
        (∀ k, k < 0x800 → s.busRead (BitVec.ofNat 16 k) = .ok (ram.getD k 0)) ∧
        (∀ k, k < prg.length → s.busRead (BitVec.ofNat 16 (0x8000 + k)) = .ok (prg.getD k 0)) ∧
        (prg.length = 0x4000 →
          ∀ k, k < prg.length → s.busRead (BitVec.ofNat 16 (0xC000 + k)) = .ok (prg.getD k 0)))

/-- A load of which no byte falls in 0x2000 to 0x7FFF completes: it keeps the run state and the memories
canonical, and a program that fits in work RAM, or in PRG-ROM from 0xC000 up to the vector, reads back.
From Running or Halted a reset then gives PC the load address, and load_and_run is the run from there; from
Faulted load_and_run is refused (R359, decision D17, log 19). A load of which some byte falls there is
refused with the address of such a byte, and load_and_run with it (70_reset_and_hazards.md R354, R355;
decision D12; addresses modulo 65536 and the vector placed last are log 12; the bound of a run is log 18). -/
def Obligations.LoadThenResetStartsTheProgram : Prop :=
  ∀ (program : List Byte) (s : State), MemoryCanonical s →
    let base := s.params.loadAddr.toNat
    let unstored : Nat → Prop := fun k => 0x2000 ≤ (base + k) % 65536 ∧ (base + k) % 65536 ≤ 0x7FFF
    ((∀ k, k < program.length → ¬ unstored k) →
      ∃ t, load program s = .ok t ∧ t.rs = s.rs ∧ MemoryCanonical t ∧
        (base + program.length ≤ 0x2000 ∧ program.length ≤ 0x800 ∨
            0xC000 ≤ base ∧ base + program.length ≤ 0xFFFC →
          ∀ k, k < program.length →
            t.busRead (BitVec.ofNat 16 (base + k)) = .ok (program.getD k 0)) ∧
        (s.rs = .running ∨ s.rs = .halted →
          ∃ u, t.doReset = .ok u ∧ u.pc = s.params.loadAddr ∧ u.rs = .running ∧
            ∀ fuel, loadAndRun fuel program s = .ok (run fuel u)) ∧
        (∀ f, s.rs = .faulted f →
          ∀ fuel, loadAndRun fuel program s = .error (.noResetFromFaulted f))) ∧
    ((∃ k, k < program.length ∧ unstored k) →
      ∃ k, k < program.length ∧ unstored k ∧
        load program s = .error (.loadRange (BitVec.ofNat 16 (base + k))) ∧
        ∀ fuel, loadAndRun fuel program s = .error (.loadRange (BitVec.ofNat 16 (base + k))))

/-- A raise ends the run in Faulted with its kind and information: no further step exists, a run stops there,
and the cartridge is unchanged (60_exceptions.md R310; what registers and RAM hold is decision D15, and
nothing is said of it but after UnrecognizedOpcode). -/
def Obligations.RaiseEndsTheRunInFaulted : Prop :=
  ∀ (s : State) (f : Fault), step s = .fault f →
    (afterStep s).rs = .faulted f ∧ (afterStep s).params = s.params ∧
    step (afterStep s) = .refused (.noStepFromFaulted f) ∧
    (∀ fuel, run (fuel + 1) s = afterStep s) ∧
    ((∃ b pc, f = .unrecognizedOpcode b pc) → afterStep s = { s with rs := .faulted f })

/-! Loads and stores (41_load_store.md). -/

/-- LDA, LDX and LDY in every form: the register gets the byte, Z and N follow it, and nothing else changes
(R140 to R142). -/
def Obligations.LoadsSetTheRegisterAndZN : Prop :=
  (∀ r ∈ [(Instr.ldaImm, (0xA9 : Byte), Mode.immediate), (.ldaZp, 0xA5, .zeroPage),
      (.ldaZpX, 0xB5, .zeroPageX), (.ldaAbs, 0xAD, .absolute), (.ldaAbsX, 0xBD, .absoluteX),
      (.ldaAbsY, 0xB9, .absoluteY), (.ldaIndX, 0xA1, .indirectX), (.ldaIndY, 0xB1, .indirectY)],
    RowAt r.1 r.2.1 r.2.2 ∧
    ReadsOperand r.1 fun s v t => t.a = v ∧ t.flag .z = (v == 0) ∧ t.flag .n = v.getLsbD 7 ∧
      KeepsAllBut [.a] [.z, .n] s t) ∧
  (∀ r ∈ [(Instr.ldxImm, (0xA2 : Byte), Mode.immediate), (.ldxZp, 0xA6, .zeroPage),
      (.ldxZpY, 0xB6, .zeroPageY), (.ldxAbs, 0xAE, .absolute), (.ldxAbsY, 0xBE, .absoluteY)],
    RowAt r.1 r.2.1 r.2.2 ∧
    ReadsOperand r.1 fun s v t => t.x = v ∧ t.flag .z = (v == 0) ∧ t.flag .n = v.getLsbD 7 ∧
      KeepsAllBut [.x] [.z, .n] s t) ∧
  (∀ r ∈ [(Instr.ldyImm, (0xA0 : Byte), Mode.immediate), (.ldyZp, 0xA4, .zeroPage),
      (.ldyZpX, 0xB4, .zeroPageX), (.ldyAbs, 0xAC, .absolute), (.ldyAbsX, 0xBC, .absoluteX)],
    RowAt r.1 r.2.1 r.2.2 ∧
    ReadsOperand r.1 fun s v t => t.y = v ∧ t.flag .z = (v == 0) ∧ t.flag .n = v.getLsbD 7 ∧
      KeepsAllBut [.y] [.z, .n] s t)

/-- STA, STX and STY in every form: the register's byte is stored at the effective address, or the window
raises, and nothing else changes (R143 to R145). -/
def Obligations.StoresWriteTheRegister : Prop :=
  (∀ r ∈ [(Instr.staZp, (0x85 : Byte), Mode.zeroPage), (.staZpX, 0x95, .zeroPageX),
      (.staAbs, 0x8D, .absolute), (.staAbsX, 0x9D, .absoluteX), (.staAbsY, 0x99, .absoluteY),
      (.staIndX, 0x81, .indirectX), (.staIndY, 0x91, .indirectY)],
    RowAt r.1 r.2.1 r.2.2 ∧ StoresByte r.1 State.a) ∧
  (∀ r ∈ [(Instr.stxZp, (0x86 : Byte), Mode.zeroPage), (.stxZpY, 0x96, .zeroPageY),
      (.stxAbs, 0x8E, .absolute)],
    RowAt r.1 r.2.1 r.2.2 ∧ StoresByte r.1 State.x) ∧
  (∀ r ∈ [(Instr.styZp, (0x84 : Byte), Mode.zeroPage), (.styZpX, 0x94, .zeroPageX),
      (.styAbs, 0x8C, .absolute)],
    RowAt r.1 r.2.1 r.2.2 ∧ StoresByte r.1 State.y)

/-! Transfers, increments and decrements (42_transfer.md, 43_inc_dec.md). -/

/-- The six transfers: the destination gets the source, and all but TXS set Z and N from it (R160 to R165). -/
def Obligations.TransfersCopyOneRegister : Prop :=
  RowAt .tax 0xAA .noneAddressing ∧ RowAt .tay 0xA8 .noneAddressing ∧ RowAt .txa 0x8A .noneAddressing ∧
  RowAt .tya 0x98 .noneAddressing ∧ RowAt .tsx 0xBA .noneAddressing ∧ RowAt .txs 0x9A .noneAddressing ∧
  ∀ s : State,
    (∃ t, exec .tax s = .next t ∧ t.x = s.a ∧ t.flag .z = (s.a == 0) ∧ t.flag .n = s.a.getLsbD 7 ∧
      KeepsAllBut [.x] [.z, .n] s t ∧ MemoryKept s t) ∧
    (∃ t, exec .tay s = .next t ∧ t.y = s.a ∧ t.flag .z = (s.a == 0) ∧ t.flag .n = s.a.getLsbD 7 ∧
      KeepsAllBut [.y] [.z, .n] s t ∧ MemoryKept s t) ∧
    (∃ t, exec .txa s = .next t ∧ t.a = s.x ∧ t.flag .z = (s.x == 0) ∧ t.flag .n = s.x.getLsbD 7 ∧
      KeepsAllBut [.a] [.z, .n] s t ∧ MemoryKept s t) ∧
    (∃ t, exec .tya s = .next t ∧ t.a = s.y ∧ t.flag .z = (s.y == 0) ∧ t.flag .n = s.y.getLsbD 7 ∧
      KeepsAllBut [.a] [.z, .n] s t ∧ MemoryKept s t) ∧
    (∃ t, exec .tsx s = .next t ∧ t.x = s.sp ∧ t.flag .z = (s.sp == 0) ∧ t.flag .n = s.sp.getLsbD 7 ∧
      KeepsAllBut [.x] [.z, .n] s t ∧ MemoryKept s t) ∧
    (∃ t, exec .txs s = .next t ∧ t.sp = s.x ∧ KeepsAllBut [.sp] [] s t ∧ MemoryKept s t)

/-- INX, INY, DEX and DEY: one more or one less modulo 256, Z and N from the result (R180 to R183). -/
def Obligations.RegisterStepsWrapModulo256 : Prop :=
  RowAt .inx 0xE8 .noneAddressing ∧ RowAt .iny 0xC8 .noneAddressing ∧
  RowAt .dex 0xCA .noneAddressing ∧ RowAt .dey 0x88 .noneAddressing ∧
  ∀ s : State,
    (∃ t, exec .inx s = .next t ∧ t.x.toNat = (s.x.toNat + 1) % 256 ∧ t.flag .z = (t.x == 0) ∧
      t.flag .n = t.x.getLsbD 7 ∧ KeepsAllBut [.x] [.z, .n] s t ∧ MemoryKept s t) ∧
    (∃ t, exec .iny s = .next t ∧ t.y.toNat = (s.y.toNat + 1) % 256 ∧ t.flag .z = (t.y == 0) ∧
      t.flag .n = t.y.getLsbD 7 ∧ KeepsAllBut [.y] [.z, .n] s t ∧ MemoryKept s t) ∧
    (∃ t, exec .dex s = .next t ∧ t.x.toNat = (s.x.toNat + 255) % 256 ∧ t.flag .z = (t.x == 0) ∧
      t.flag .n = t.x.getLsbD 7 ∧ KeepsAllBut [.x] [.z, .n] s t ∧ MemoryKept s t) ∧
    (∃ t, exec .dey s = .next t ∧ t.y.toNat = (s.y.toNat + 255) % 256 ∧ t.flag .z = (t.y == 0) ∧
      t.flag .n = t.y.getLsbD 7 ∧ KeepsAllBut [.y] [.z, .n] s t ∧ MemoryKept s t)

/-- INC and DEC in every form: the byte at the effective address is one more or one less modulo 256, Z and N
from it, with the window's errors (R184, R185). -/
def Obligations.MemoryStepsReadModifyWrite : Prop :=
  (∀ r ∈ [(Instr.incZp, (0xE6 : Byte), Mode.zeroPage), (.incZpX, 0xF6, .zeroPageX),
      (.incAbs, 0xEE, .absolute), (.incAbsX, 0xFE, .absoluteX)],
    RowAt r.1 r.2.1 r.2.2 ∧
    ModifiesByte r.1 (fun _ v => BitVec.ofNat 8 ((v.toNat + 1) % 256)) fun s v t =>
      t.flag .z = decide ((v.toNat + 1) % 256 = 0) ∧ t.flag .n = decide (128 ≤ (v.toNat + 1) % 256) ∧
      KeepsAllBut [] [.z, .n] s t) ∧
  (∀ r ∈ [(Instr.decZp, (0xC6 : Byte), Mode.zeroPage), (.decZpX, 0xD6, .zeroPageX),
      (.decAbs, 0xCE, .absolute), (.decAbsX, 0xDE, .absoluteX)],
    RowAt r.1 r.2.1 r.2.2 ∧
    ModifiesByte r.1 (fun _ v => BitVec.ofNat 8 ((v.toNat + 255) % 256)) fun s v t =>
      t.flag .z = decide ((v.toNat + 255) % 256 = 0) ∧
      t.flag .n = decide (128 ≤ (v.toNat + 255) % 256) ∧ KeepsAllBut [] [.z, .n] s t)

/-! Shifts and rotates (44_shift_rotate.md). -/

/-- ASL and LSR on A and on memory in every form: C is the bit shifted off, Z and N from the result (R202,
R203, with R201's errors). -/
def Obligations.ShiftsMoveTheLostBitToCarry : Prop :=
  RowAt .aslAcc 0x0A .noneAddressing ∧ RowAt .lsrAcc 0x4A .noneAddressing ∧
  (∀ s : State, ∃ t, exec .aslAcc s = .next t ∧ t.a.toNat = s.a.toNat * 2 % 256 ∧
    t.flag .c = s.a.getLsbD 7 ∧ t.flag .z = (t.a == 0) ∧ t.flag .n = t.a.getLsbD 7 ∧
    KeepsAllBut [.a] [.c, .z, .n] s t ∧ MemoryKept s t) ∧
  (∀ s : State, ∃ t, exec .lsrAcc s = .next t ∧ t.a.toNat = s.a.toNat / 2 ∧
    t.flag .c = s.a.getLsbD 0 ∧ t.flag .z = (t.a == 0) ∧ t.flag .n = false ∧
    KeepsAllBut [.a] [.c, .z, .n] s t ∧ MemoryKept s t) ∧
  (∀ r ∈ [(Instr.aslZp, (0x06 : Byte), Mode.zeroPage), (.aslZpX, 0x16, .zeroPageX),
      (.aslAbs, 0x0E, .absolute), (.aslAbsX, 0x1E, .absoluteX)],
    RowAt r.1 r.2.1 r.2.2 ∧
    ModifiesByte r.1 (fun _ v => BitVec.ofNat 8 (v.toNat * 2 % 256)) fun s v t =>
      t.flag .c = v.getLsbD 7 ∧ t.flag .z = decide (v.toNat * 2 % 256 = 0) ∧
      t.flag .n = v.getLsbD 6 ∧ KeepsAllBut [] [.c, .z, .n] s t) ∧
  (∀ r ∈ [(Instr.lsrZp, (0x46 : Byte), Mode.zeroPage), (.lsrZpX, 0x56, .zeroPageX),
      (.lsrAbs, 0x4E, .absolute), (.lsrAbsX, 0x5E, .absoluteX)],
    RowAt r.1 r.2.1 r.2.2 ∧
    ModifiesByte r.1 (fun _ v => BitVec.ofNat 8 (v.toNat / 2)) fun s v t =>
      t.flag .c = v.getLsbD 0 ∧ t.flag .z = decide (v.toNat / 2 = 0) ∧ t.flag .n = false ∧
      KeepsAllBut [] [.c, .z, .n] s t)

/-- ROL on A and on memory in every form: the old carry enters bit 0, the old bit 7 becomes the carry, N is
bit 7 of the result, and Z is written only as P_ROT_Z says (R204, R205; the parameter is R200 and decision
D3). -/
def Obligations.RotateLeftGoesThroughCarry : Prop :=
  RowAt .rolAcc 0x2A .noneAddressing ∧
  (∀ s : State, ∃ t, exec .rolAcc s = .next t ∧
    t.a.toNat = s.a.toNat * 2 % 256 + (s.flag .c).toNat ∧
    t.flag .c = s.a.getLsbD 7 ∧ t.flag .n = s.a.getLsbD 6 ∧
    (s.params.rotZ = .never → t.flag .z = s.flag .z) ∧
    (s.params.rotZ ≠ .never → t.flag .z = (t.a == 0)) ∧
    KeepsAllBut [.a] [.c, .z, .n] s t ∧ MemoryKept s t) ∧
  (∀ r ∈ [(Instr.rolZp, (0x26 : Byte), Mode.zeroPage), (.rolZpX, 0x36, .zeroPageX),
      (.rolAbs, 0x2E, .absolute), (.rolAbsX, 0x3E, .absoluteX)],
    RowAt r.1 r.2.1 r.2.2 ∧
    ModifiesByte r.1 (fun s v => BitVec.ofNat 8 (v.toNat * 2 % 256 + (s.flag .c).toNat)) fun s v t =>
      t.flag .c = v.getLsbD 7 ∧ t.flag .n = v.getLsbD 6 ∧
      (s.params.rotZ ≠ .always → t.flag .z = s.flag .z) ∧
      (s.params.rotZ = .always →
        t.flag .z = decide (v.toNat * 2 % 256 + (s.flag .c).toNat = 0)) ∧
      KeepsAllBut [] [.c, .z, .n] s t)

/-- ROR on A and on memory in every form: the old carry enters bit 7 and becomes N, the old bit 0 becomes the
carry, and Z is written only as P_ROT_Z says (R206, R207; the parameter is R200 and decision D3). -/
def Obligations.RotateRightGoesThroughCarry : Prop :=
  RowAt .rorAcc 0x6A .noneAddressing ∧
  (∀ s : State, ∃ t, exec .rorAcc s = .next t ∧
    t.a.toNat = s.a.toNat / 2 + 128 * (s.flag .c).toNat ∧
    t.flag .c = s.a.getLsbD 0 ∧ t.flag .n = s.flag .c ∧
    (s.params.rotZ = .never → t.flag .z = s.flag .z) ∧
    (s.params.rotZ ≠ .never → t.flag .z = (t.a == 0)) ∧
    KeepsAllBut [.a] [.c, .z, .n] s t ∧ MemoryKept s t) ∧
  (∀ r ∈ [(Instr.rorZp, (0x66 : Byte), Mode.zeroPage), (.rorZpX, 0x76, .zeroPageX),
      (.rorAbs, 0x6E, .absolute), (.rorAbsX, 0x7E, .absoluteX)],
    RowAt r.1 r.2.1 r.2.2 ∧
    ModifiesByte r.1 (fun s v => BitVec.ofNat 8 (v.toNat / 2 + 128 * (s.flag .c).toNat)) fun s v t =>
      t.flag .c = v.getLsbD 0 ∧ t.flag .n = s.flag .c ∧
      (s.params.rotZ ≠ .always → t.flag .z = s.flag .z) ∧
      (s.params.rotZ = .always →
        t.flag .z = decide (v.toNat / 2 + 128 * (s.flag .c).toNat = 0)) ∧
      KeepsAllBut [] [.c, .z, .n] s t)

/-- Nine rotates of a byte through the carry, left or right, give the byte and the carry back (R208): of A,
and of a byte of work RAM that is none of the instruction's own operand bytes, with all of memory as
before. -/
def Obligations.NineRotatesRestoreByteAndCarry : Prop :=
  (∀ i ∈ [Instr.rolAcc, .rorAcc], ∀ s : State,
    ∃ t, execTimes i 9 s = .next t ∧ t.a = s.a ∧ t.flag .c = s.flag .c) ∧
  (∀ i ∈ [Instr.rolZp, .rolZpX, .rolAbs, .rolAbsX, .rorZp, .rorZpX, .rorAbs, .rorAbsX],
    ∀ (s : State) (ea : Word), MemoryCanonical s → effectiveAddress i.entry s = .ok ea →
      ea.toNat ≤ 0x1FFF → sameRamByte ea s.pc = false →
      (i.entry.length = 3 → sameRamByte ea (s.pc + 1) = false) →
      ∃ t, execTimes i 9 s = .next t ∧ MemoryKept s t ∧ t.flag .c = s.flag .c)

/-! Logic, arithmetic, compare, bit test (45_logic_arith.md). -/

/-- AND, EOR and ORA in every form: the bitwise result in A, Z and N from it (R220 to R222). -/
def Obligations.LogicCombinesBitwiseIntoA : Prop :=
  let effect (op : Byte → Byte → Byte) (s : State) (m : Byte) (t : State) : Prop :=
    t.a = op s.a m ∧ t.flag .z = (op s.a m == 0) ∧ t.flag .n = (op s.a m).getLsbD 7 ∧
      KeepsAllBut [.a] [.z, .n] s t
  (∀ r ∈ [(Instr.andImm, (0x29 : Byte), Mode.immediate), (.andZp, 0x25, .zeroPage),
      (.andZpX, 0x35, .zeroPageX), (.andAbs, 0x2D, .absolute), (.andAbsX, 0x3D, .absoluteX),
      (.andAbsY, 0x39, .absoluteY), (.andIndX, 0x21, .indirectX), (.andIndY, 0x31, .indirectY)],
    RowAt r.1 r.2.1 r.2.2 ∧ ReadsOperand r.1 (effect fun a m => a &&& m)) ∧
  (∀ r ∈ [(Instr.eorImm, (0x49 : Byte), Mode.immediate), (.eorZp, 0x45, .zeroPage),
      (.eorZpX, 0x55, .zeroPageX), (.eorAbs, 0x4D, .absolute), (.eorAbsX, 0x5D, .absoluteX),
      (.eorAbsY, 0x59, .absoluteY), (.eorIndX, 0x41, .indirectX), (.eorIndY, 0x51, .indirectY)],
    RowAt r.1 r.2.1 r.2.2 ∧ ReadsOperand r.1 (effect fun a m => a ^^^ m)) ∧
  (∀ r ∈ [(Instr.oraImm, (0x09 : Byte), Mode.immediate), (.oraZp, 0x05, .zeroPage),
      (.oraZpX, 0x15, .zeroPageX), (.oraAbs, 0x0D, .absolute), (.oraAbsX, 0x1D, .absoluteX),
      (.oraAbsY, 0x19, .absoluteY), (.oraIndX, 0x01, .indirectX), (.oraIndY, 0x11, .indirectY)],
    RowAt r.1 r.2.1 r.2.2 ∧ ReadsOperand r.1 (effect fun a m => a ||| m))

/-- ADC in every form: the sum of A, the byte and the carry, its ninth bit in C, the overflow formula in V,
Z and N from the result (R224 with the formula of R223; that the sum is binary whatever D holds is the
spec's decision D18, PRESUMED in log 11). -/
def Obligations.AdcAddsWithCarry : Prop :=
  ∀ r ∈ [(Instr.adcImm, (0x69 : Byte), Mode.immediate), (.adcZp, 0x65, .zeroPage),
      (.adcZpX, 0x75, .zeroPageX), (.adcAbs, 0x6D, .absolute), (.adcAbsX, 0x7D, .absoluteX),
      (.adcAbsY, 0x79, .absoluteY), (.adcIndX, 0x61, .indirectX), (.adcIndY, 0x71, .indirectY)],
    RowAt r.1 r.2.1 r.2.2 ∧
    ReadsOperand r.1 fun s m t =>
      let sum := s.a.toNat + m.toNat + (s.flag .c).toNat
      t.a.toNat = sum % 256 ∧ t.flag .c = decide (255 < sum) ∧
      t.flag .v = ((m ^^^ t.a) &&& (t.a ^^^ s.a) &&& 0x80 != 0) ∧
      t.flag .z = (t.a == 0) ∧ t.flag .n = t.a.getLsbD 7 ∧
      KeepsAllBut [.a] [.c, .v, .z, .n] s t

/-- SBC in every form: A less the byte less the borrow modulo 256, C set exactly when nothing was borrowed, V
the overflow formula on the complemented byte, Z and N from the result (R225 with R223; that the difference
is binary whatever D holds is the spec's decision D18, PRESUMED in log 11). -/
def Obligations.SbcSubtractsWithBorrow : Prop :=
  ∀ r ∈ [(Instr.sbcImm, (0xE9 : Byte), Mode.immediate), (.sbcZp, 0xE5, .zeroPage),
      (.sbcZpX, 0xF5, .zeroPageX), (.sbcAbs, 0xED, .absolute), (.sbcAbsX, 0xFD, .absoluteX),
      (.sbcAbsY, 0xF9, .absoluteY), (.sbcIndX, 0xE1, .indirectX), (.sbcIndY, 0xF1, .indirectY)],
    RowAt r.1 r.2.1 r.2.2 ∧
    ReadsOperand r.1 fun s m t =>
      let difference : Int := (s.a.toNat : Int) - m.toNat - (1 - (s.flag .c).toNat)
      (t.a.toNat : Int) = difference % 256 ∧ t.flag .c = decide (0 ≤ difference) ∧
      t.flag .v = (((m ^^^ 0xFF) ^^^ t.a) &&& (t.a ^^^ s.a) &&& 0x80 != 0) ∧
      t.flag .z = (t.a == 0) ∧ t.flag .n = t.a.getLsbD 7 ∧
      KeepsAllBut [.a] [.c, .v, .z, .n] s t

/-- The overflow formula of the adder says that the sum of the two's complement operands and the carry does
not fit in 8 bits (R230, of R223's formula). -/
def Obligations.OverflowIsSignedOverflow : Prop :=
  ∀ (s : State) (m : Byte),
    let sum : Int := s.a.toInt + m.toInt + (s.flag .c).toNat
    (s.addToA m).flag .v = decide (sum < -128 ∨ 127 < sum)

/-- CMP, CPX and CPY in every form: C is set exactly when the register is at least the byte, Z and N are those
of the difference modulo 256, and no register changes (R226 to R228). -/
def Obligations.ComparesSetCarryZeroNegative : Prop :=
  let effect (reg : State → Byte) (s : State) (m : Byte) (t : State) : Prop :=
    t.flag .c = decide (m.toNat ≤ (reg s).toNat) ∧ t.flag .z = (reg s == m) ∧
      t.flag .n = decide (128 ≤ ((reg s).toNat + 256 - m.toNat) % 256) ∧
      KeepsAllBut [] [.c, .z, .n] s t
  (∀ r ∈ [(Instr.cmpImm, (0xC9 : Byte), Mode.immediate), (.cmpZp, 0xC5, .zeroPage),
      (.cmpZpX, 0xD5, .zeroPageX), (.cmpAbs, 0xCD, .absolute), (.cmpAbsX, 0xDD, .absoluteX),
      (.cmpAbsY, 0xD9, .absoluteY), (.cmpIndX, 0xC1, .indirectX), (.cmpIndY, 0xD1, .indirectY)],
    RowAt r.1 r.2.1 r.2.2 ∧ ReadsOperand r.1 (effect State.a)) ∧
  (∀ r ∈ [(Instr.cpxImm, (0xE0 : Byte), Mode.immediate), (.cpxZp, 0xE4, .zeroPage),
      (.cpxAbs, 0xEC, .absolute)],
    RowAt r.1 r.2.1 r.2.2 ∧ ReadsOperand r.1 (effect State.x)) ∧
  (∀ r ∈ [(Instr.cpyImm, (0xC0 : Byte), Mode.immediate), (.cpyZp, 0xC4, .zeroPage),
      (.cpyAbs, 0xCC, .absolute)],
    RowAt r.1 r.2.1 r.2.2 ∧ ReadsOperand r.1 (effect State.y))

/-- BIT in both forms: Z from A and the byte, N and V from the byte's bits 7 and 6, A unchanged (R229). -/
def Obligations.BitTestsMemoryAgainstA : Prop :=
  ∀ r ∈ [(Instr.bitZp, (0x24 : Byte), Mode.zeroPage), (.bitAbs, 0x2C, .absolute)],
    RowAt r.1 r.2.1 r.2.2 ∧
    ReadsOperand r.1 fun s m t => t.flag .z = (s.a &&& m == 0) ∧ t.flag .n = m.getLsbD 7 ∧
      t.flag .v = m.getLsbD 6 ∧ KeepsAllBut [] [.z, .n, .v] s t

/-! Branches, jumps, subroutines (46_control.md). -/

/-- The eight branches: not taken, nothing happens, whatever lies at the offset byte; taken, PC is the address
after the offset byte plus the signed offset modulo 65536 and nothing else changes, or the offset byte's
read raises (R250 to R258; the conditions are decision D19). -/
def Obligations.BranchesTestTheirFlag : Prop :=
  ∀ r ∈ [(Instr.bcc, (0x90 : Byte), Flag.c, false), (.bcs, 0xB0, .c, true), (.beq, 0xF0, .z, true),
      (.bne, 0xD0, .z, false), (.bpl, 0x10, .n, false), (.bmi, 0x30, .n, true), (.bvc, 0x50, .v, false),
      (.bvs, 0x70, .v, true)],
    RowAt r.1 r.2.1 .noneAddressing ∧
    ∀ s : State,
      (s.flag r.2.2.1 ≠ r.2.2.2 → exec r.1 s = .next s) ∧
      (s.flag r.2.2.1 = r.2.2.2 →
        (∀ off, s.busRead s.pc = .ok off →
          exec r.1 s = .next { s with pc := BitVec.ofInt 16 ((s.pc.toNat : Int) + 1 + off.toInt) }) ∧
        (∀ f, s.busRead s.pc = .error f → exec r.1 s = .fault f))

/-- JMP absolute takes the 16-bit operand, JMP indirect the 16-bit value at the pointer it holds, the high
byte from the next address across a page boundary too; an operand or pointer byte that raises ends them
(R259, R260). -/
def Obligations.JumpsSetThePc : Prop :=
  RowAt .jmpAbs 0x4C .noneAddressing ∧ RowAt .jmpInd 0x6C .noneAddressing ∧
  ∀ s : State,
    (∀ f, s.read16 s.pc = .error f → exec .jmpAbs s = .fault f ∧ exec .jmpInd s = .fault f) ∧
    (∀ lo hi, s.busRead s.pc = .ok lo → s.busRead (s.pc + 1) = .ok hi →
      let operand : Word := BitVec.ofNat 16 (lo.toNat + 256 * hi.toNat)
      exec .jmpAbs s = .next { s with pc := operand } ∧
      (∀ f, s.read16 operand = .error f → exec .jmpInd s = .fault f) ∧
      (∀ lo' hi', s.busRead operand = .ok lo' → s.busRead (operand + 1) = .ok hi' →
        exec .jmpInd s = .next { s with pc := BitVec.ofNat 16 (lo'.toNat + 256 * hi'.toNat) }))

/-- JSR pushes the address of its last byte, high byte first, then takes PC from its operand, read after the
push (R261; the orders are decisions D4 and D24, log 11). -/
def Obligations.JsrPushesThenJumps : Prop :=
  RowAt .jsr 0x20 .noneAddressing ∧
  ∀ s : State,
    let ret := s.pc + 1
    let pushed : State :=
      { s with
        ram := Memory.set (Memory.set s.ram (0x100 + s.sp.toNat) (BitVec.ofNat 8 (ret.toNat / 256)))
          (0x100 + (s.sp - 1).toNat) (BitVec.ofNat 8 (ret.toNat % 256))
        sp := s.sp - 2 }
    (∀ lo hi, pushed.busRead s.pc = .ok lo → pushed.busRead (s.pc + 1) = .ok hi →
      exec .jsr s = .next { pushed with pc := BitVec.ofNat 16 (lo.toNat + 256 * hi.toNat) }) ∧
    (∀ f, pushed.read16 s.pc = .error f → exec .jsr s = .fault f)

/-- RTS pulls the low byte, then the high byte, and goes to the address after the one they make (R262; the
order within a pull is decision D4, log 11). -/
def Obligations.RtsReturnsAfterThePulledAddress : Prop :=
  RowAt .rts 0x60 .noneAddressing ∧
  ∀ s : State, ∃ lo hi,
    s.busRead (0x0100 + (s.sp + 1).setWidth 16) = .ok lo ∧
    s.busRead (0x0100 + (s.sp + 2).setWidth 16) = .ok hi ∧
    exec .rts s = .next { s with
      pc := BitVec.ofNat 16 (lo.toNat + 256 * hi.toNat + 1)
      sp := s.sp + 2 }

/-- A JSR, and later an RTS from a state that has the stack pointer and the two stacked bytes as the JSR left
them, return to the address after the JSR with SP restored (R263). -/
def Obligations.RtsReturnsToAfterTheJsr : Prop :=
  ∀ s t u : State, MemoryCanonical s → exec .jsr s = .next t → u.sp = t.sp →
    u.busRead (0x0100 + (t.sp + 1).setWidth 16) = t.busRead (0x0100 + (t.sp + 1).setWidth 16) →
    u.busRead (0x0100 + (t.sp + 2).setWidth 16) = t.busRead (0x0100 + (t.sp + 2).setWidth 16) →
    exec .rts u = .next { u with pc := s.pc + 2, sp := s.sp }

/-! Stack, flags, RTI, NOP and BRK (47_stack_flag_system.md). -/

/-- A push and then a pop give the byte back and the stack pointer its value, for every byte and every stack
pointer (40_engine.md R120, R121; the order within each is decision D4). -/
def Obligations.PopReturnsTheBytePushed : Prop :=
  ∀ (s : State) (v : Byte), MemoryCanonical s →
    ∃ t u, s.push v = .ok t ∧ t.pop = .ok (v, u) ∧ u.sp = s.sp ∧
      MemoryHolds (0x0100 + s.sp.setWidth 16) v t ∧
      MemoryKeptExcept (0x0100 + s.sp.setWidth 16) s t ∧ MemoryKept t u

/-- PHA stores A and PHP stores P with Break and Break2 set at the stack pointer's byte, SP falls by one
modulo 256, and nothing else changes (R280, R282; the order of store and decrement is decision D4, log 11). -/
def Obligations.PushesStoreAtTheStackPointer : Prop :=
  RowAt .pha 0x48 .noneAddressing ∧ RowAt .php 0x08 .noneAddressing ∧
  ∀ r ∈ [(Instr.pha, State.a), (.php, fun s : State => s.p ||| 0x30)], ∀ s : State,
    ∃ t, exec r.1 s = .next t ∧ t.sp.toNat = (s.sp.toNat + 255) % 256 ∧ KeepsAllBut [.sp] [] s t ∧
      (MemoryCanonical s →
        MemoryHolds (0x0100 + s.sp.setWidth 16) (r.2 s) t ∧
        MemoryKeptExcept (0x0100 + s.sp.setWidth 16) s t)

/-- PLA: SP rises by one modulo 256, A gets the byte there, Z and N follow it (R281; that it writes Z and N is
decision D5). -/
def Obligations.PlaPullsIntoA : Prop :=
  RowAt .pla 0x68 .noneAddressing ∧
  ∀ s : State, ∃ v t, s.busRead (0x0100 + (s.sp + 1).setWidth 16) = .ok v ∧ exec .pla s = .next t ∧
    t.a = v ∧ t.sp.toNat = (s.sp.toNat + 1) % 256 ∧ t.flag .z = (v == 0) ∧ t.flag .n = v.getLsbD 7 ∧
    KeepsAllBut [.a, .sp] [.z, .n] s t ∧ MemoryKept s t

/-- PLP and RTI take P from the pulled byte with Break cleared and Break2 set; RTI then pulls PC, low byte
first, with no +1 (R283, R291; the order within a pull is decision D4, log 11). -/
def Obligations.PulledStatusIsNormalised : Prop :=
  RowAt .plp 0x28 .noneAddressing ∧ RowAt .rti 0x40 .noneAddressing ∧
  ∀ s : State, ∃ v lo hi,
    s.busRead (0x0100 + (s.sp + 1).setWidth 16) = .ok v ∧
    s.busRead (0x0100 + (s.sp + 2).setWidth 16) = .ok lo ∧
    s.busRead (0x0100 + (s.sp + 3).setWidth 16) = .ok hi ∧
    exec .plp s = .next { s with p := (v &&& 0xEF) ||| 0x20, sp := s.sp + 1 } ∧
    exec .rti s = .next { s with
      p := (v &&& 0xEF) ||| 0x20
      pc := BitVec.ofNat 16 (lo.toNat + 256 * hi.toNat)
      sp := s.sp + 3 }

/-- The seven flag instructions write their one bit of P and nothing else (R284 to R290; the bit of each is
decision D26). -/
def Obligations.FlagInstructionsWriteOneBit : Prop :=
  ∀ r ∈ [(Instr.clc, (0x18 : Byte), (0xFE : Byte), (0x00 : Byte)), (.sec, 0x38, 0xFF, 0x01),
      (.cli, 0x58, 0xFB, 0x00), (.sei, 0x78, 0xFF, 0x04), (.cld, 0xD8, 0xF7, 0x00),
      (.sed, 0xF8, 0xFF, 0x08), (.clv, 0xB8, 0xBF, 0x00)],
    RowAt r.1 r.2.1 .noneAddressing ∧
    ∀ s : State, exec r.1 s = .next { s with p := (s.p &&& r.2.2.1) ||| r.2.2.2 }

/-- NOP does nothing, and BRK sets RS to Halted and does nothing else: it pushes nothing, sets no flag and
reads no vector (R292, R295; that NOP is in the table is decision D6). -/
def Obligations.NopDoesNothingAndBrkHalts : Prop :=
  RowAt .nop 0xEA .noneAddressing ∧ RowAt .brk 0x00 .noneAddressing ∧
  ∀ s : State, exec .nop s = .next s ∧ exec .brk s = .next { s with rs := .halted }
end

