-- ==== Sys2Proof/Laws/State.lean ====
section
/-! SUPPORT. One lemma per field per update of the state. -/

namespace Sys2Proof.Machine

variable (s : State)

/-! `setA`. -/

@[simp] theorem State.setA_a (v : Byte) : (s.setA v).a = v := rfl
@[simp] theorem State.setA_x (v : Byte) : (s.setA v).x = s.x := rfl
@[simp] theorem State.setA_y (v : Byte) : (s.setA v).y = s.y := rfl
@[simp] theorem State.setA_sp (v : Byte) : (s.setA v).sp = s.sp := rfl
@[simp] theorem State.setA_p (v : Byte) : (s.setA v).p = s.p := rfl
@[simp] theorem State.setA_pc (v : Byte) : (s.setA v).pc = s.pc := rfl
@[simp] theorem State.setA_rs (v : Byte) : (s.setA v).rs = s.rs := rfl
@[simp] theorem State.setA_ram (v : Byte) : (s.setA v).ram = s.ram := rfl
@[simp] theorem State.setA_params (v : Byte) : (s.setA v).params = s.params := rfl
@[simp] theorem State.setA_observer (v : Byte) : (s.setA v).observer = s.observer := rfl
@[simp] theorem State.setA_draw (v : Byte) : (s.setA v).draw = s.draw := rfl
@[simp] theorem State.setA_flag (v : Byte) (g : Flag) : (s.setA v).flag g = s.flag g := rfl
@[simp] theorem State.setA_busRead (v : Byte) (addr : Word) : (s.setA v).busRead addr = s.busRead addr := rfl

/-! `setX`. -/

@[simp] theorem State.setX_a (v : Byte) : (s.setX v).a = s.a := rfl
@[simp] theorem State.setX_x (v : Byte) : (s.setX v).x = v := rfl
@[simp] theorem State.setX_y (v : Byte) : (s.setX v).y = s.y := rfl
@[simp] theorem State.setX_sp (v : Byte) : (s.setX v).sp = s.sp := rfl
@[simp] theorem State.setX_p (v : Byte) : (s.setX v).p = s.p := rfl
@[simp] theorem State.setX_pc (v : Byte) : (s.setX v).pc = s.pc := rfl
@[simp] theorem State.setX_rs (v : Byte) : (s.setX v).rs = s.rs := rfl
@[simp] theorem State.setX_ram (v : Byte) : (s.setX v).ram = s.ram := rfl
@[simp] theorem State.setX_params (v : Byte) : (s.setX v).params = s.params := rfl
@[simp] theorem State.setX_observer (v : Byte) : (s.setX v).observer = s.observer := rfl
@[simp] theorem State.setX_draw (v : Byte) : (s.setX v).draw = s.draw := rfl
@[simp] theorem State.setX_flag (v : Byte) (g : Flag) : (s.setX v).flag g = s.flag g := rfl
@[simp] theorem State.setX_busRead (v : Byte) (addr : Word) : (s.setX v).busRead addr = s.busRead addr := rfl

/-! `setY`. -/

@[simp] theorem State.setY_a (v : Byte) : (s.setY v).a = s.a := rfl
@[simp] theorem State.setY_x (v : Byte) : (s.setY v).x = s.x := rfl
@[simp] theorem State.setY_y (v : Byte) : (s.setY v).y = v := rfl
@[simp] theorem State.setY_sp (v : Byte) : (s.setY v).sp = s.sp := rfl
@[simp] theorem State.setY_p (v : Byte) : (s.setY v).p = s.p := rfl
@[simp] theorem State.setY_pc (v : Byte) : (s.setY v).pc = s.pc := rfl
@[simp] theorem State.setY_rs (v : Byte) : (s.setY v).rs = s.rs := rfl
@[simp] theorem State.setY_ram (v : Byte) : (s.setY v).ram = s.ram := rfl
@[simp] theorem State.setY_params (v : Byte) : (s.setY v).params = s.params := rfl
@[simp] theorem State.setY_observer (v : Byte) : (s.setY v).observer = s.observer := rfl
@[simp] theorem State.setY_draw (v : Byte) : (s.setY v).draw = s.draw := rfl
@[simp] theorem State.setY_flag (v : Byte) (g : Flag) : (s.setY v).flag g = s.flag g := rfl
@[simp] theorem State.setY_busRead (v : Byte) (addr : Word) : (s.setY v).busRead addr = s.busRead addr := rfl

/-! `setSp`. -/

@[simp] theorem State.setSp_a (v : Byte) : (s.setSp v).a = s.a := rfl
@[simp] theorem State.setSp_x (v : Byte) : (s.setSp v).x = s.x := rfl
@[simp] theorem State.setSp_y (v : Byte) : (s.setSp v).y = s.y := rfl
@[simp] theorem State.setSp_sp (v : Byte) : (s.setSp v).sp = v := rfl
@[simp] theorem State.setSp_p (v : Byte) : (s.setSp v).p = s.p := rfl
@[simp] theorem State.setSp_pc (v : Byte) : (s.setSp v).pc = s.pc := rfl
@[simp] theorem State.setSp_rs (v : Byte) : (s.setSp v).rs = s.rs := rfl
@[simp] theorem State.setSp_ram (v : Byte) : (s.setSp v).ram = s.ram := rfl
@[simp] theorem State.setSp_params (v : Byte) : (s.setSp v).params = s.params := rfl
@[simp] theorem State.setSp_observer (v : Byte) : (s.setSp v).observer = s.observer := rfl
@[simp] theorem State.setSp_draw (v : Byte) : (s.setSp v).draw = s.draw := rfl
@[simp] theorem State.setSp_flag (v : Byte) (g : Flag) : (s.setSp v).flag g = s.flag g := rfl
@[simp] theorem State.setSp_busRead (v : Byte) (addr : Word) : (s.setSp v).busRead addr = s.busRead addr := rfl

/-! `setP`. -/

@[simp] theorem State.setP_a (v : Byte) : (s.setP v).a = s.a := rfl
@[simp] theorem State.setP_x (v : Byte) : (s.setP v).x = s.x := rfl
@[simp] theorem State.setP_y (v : Byte) : (s.setP v).y = s.y := rfl
@[simp] theorem State.setP_sp (v : Byte) : (s.setP v).sp = s.sp := rfl
@[simp] theorem State.setP_p (v : Byte) : (s.setP v).p = v := rfl
@[simp] theorem State.setP_pc (v : Byte) : (s.setP v).pc = s.pc := rfl
@[simp] theorem State.setP_rs (v : Byte) : (s.setP v).rs = s.rs := rfl
@[simp] theorem State.setP_ram (v : Byte) : (s.setP v).ram = s.ram := rfl
@[simp] theorem State.setP_params (v : Byte) : (s.setP v).params = s.params := rfl
@[simp] theorem State.setP_observer (v : Byte) : (s.setP v).observer = s.observer := rfl
@[simp] theorem State.setP_draw (v : Byte) : (s.setP v).draw = s.draw := rfl
@[simp] theorem State.setP_busRead (v : Byte) (addr : Word) : (s.setP v).busRead addr = s.busRead addr := rfl

/-! `setPc`. -/

@[simp] theorem State.setPc_a (v : Word) : (s.setPc v).a = s.a := rfl
@[simp] theorem State.setPc_x (v : Word) : (s.setPc v).x = s.x := rfl
@[simp] theorem State.setPc_y (v : Word) : (s.setPc v).y = s.y := rfl
@[simp] theorem State.setPc_sp (v : Word) : (s.setPc v).sp = s.sp := rfl
@[simp] theorem State.setPc_p (v : Word) : (s.setPc v).p = s.p := rfl
@[simp] theorem State.setPc_pc (v : Word) : (s.setPc v).pc = v := rfl
@[simp] theorem State.setPc_rs (v : Word) : (s.setPc v).rs = s.rs := rfl
@[simp] theorem State.setPc_ram (v : Word) : (s.setPc v).ram = s.ram := rfl
@[simp] theorem State.setPc_params (v : Word) : (s.setPc v).params = s.params := rfl
@[simp] theorem State.setPc_observer (v : Word) : (s.setPc v).observer = s.observer := rfl
@[simp] theorem State.setPc_draw (v : Word) : (s.setPc v).draw = s.draw := rfl
@[simp] theorem State.setPc_flag (v : Word) (g : Flag) : (s.setPc v).flag g = s.flag g := rfl
@[simp] theorem State.setPc_busRead (v : Word) (addr : Word) : (s.setPc v).busRead addr = s.busRead addr := rfl

/-! `setRs`. -/

@[simp] theorem State.setRs_a (r : RunState) : (s.setRs r).a = s.a := rfl
@[simp] theorem State.setRs_x (r : RunState) : (s.setRs r).x = s.x := rfl
@[simp] theorem State.setRs_y (r : RunState) : (s.setRs r).y = s.y := rfl
@[simp] theorem State.setRs_sp (r : RunState) : (s.setRs r).sp = s.sp := rfl
@[simp] theorem State.setRs_p (r : RunState) : (s.setRs r).p = s.p := rfl
@[simp] theorem State.setRs_pc (r : RunState) : (s.setRs r).pc = s.pc := rfl
@[simp] theorem State.setRs_rs (r : RunState) : (s.setRs r).rs = r := rfl
@[simp] theorem State.setRs_ram (r : RunState) : (s.setRs r).ram = s.ram := rfl
@[simp] theorem State.setRs_params (r : RunState) : (s.setRs r).params = s.params := rfl
@[simp] theorem State.setRs_observer (r : RunState) : (s.setRs r).observer = s.observer := rfl
@[simp] theorem State.setRs_draw (r : RunState) : (s.setRs r).draw = s.draw := rfl
@[simp] theorem State.setRs_flag (r : RunState) (g : Flag) : (s.setRs r).flag g = s.flag g := rfl
@[simp] theorem State.setRs_busRead (r : RunState) (addr : Word) : (s.setRs r).busRead addr = s.busRead addr := rfl

/-! `setRam`. -/

@[simp] theorem State.setRam_a (m : Memory) : (s.setRam m).a = s.a := rfl
@[simp] theorem State.setRam_x (m : Memory) : (s.setRam m).x = s.x := rfl
@[simp] theorem State.setRam_y (m : Memory) : (s.setRam m).y = s.y := rfl
@[simp] theorem State.setRam_sp (m : Memory) : (s.setRam m).sp = s.sp := rfl
@[simp] theorem State.setRam_p (m : Memory) : (s.setRam m).p = s.p := rfl
@[simp] theorem State.setRam_pc (m : Memory) : (s.setRam m).pc = s.pc := rfl
@[simp] theorem State.setRam_rs (m : Memory) : (s.setRam m).rs = s.rs := rfl
@[simp] theorem State.setRam_ram (m : Memory) : (s.setRam m).ram = m := rfl
@[simp] theorem State.setRam_params (m : Memory) : (s.setRam m).params = s.params := rfl
@[simp] theorem State.setRam_observer (m : Memory) : (s.setRam m).observer = s.observer := rfl
@[simp] theorem State.setRam_draw (m : Memory) : (s.setRam m).draw = s.draw := rfl
@[simp] theorem State.setRam_flag (m : Memory) (g : Flag) : (s.setRam m).flag g = s.flag g := rfl

/-! `setObserver`. -/

@[simp] theorem State.setObserver_a (q : List (List (Word × Byte))) : (s.setObserver q).a = s.a := rfl
@[simp] theorem State.setObserver_x (q : List (List (Word × Byte))) : (s.setObserver q).x = s.x := rfl
@[simp] theorem State.setObserver_y (q : List (List (Word × Byte))) : (s.setObserver q).y = s.y := rfl
@[simp] theorem State.setObserver_sp (q : List (List (Word × Byte))) : (s.setObserver q).sp = s.sp := rfl
@[simp] theorem State.setObserver_p (q : List (List (Word × Byte))) : (s.setObserver q).p = s.p := rfl
@[simp] theorem State.setObserver_pc (q : List (List (Word × Byte))) : (s.setObserver q).pc = s.pc := rfl
@[simp] theorem State.setObserver_rs (q : List (List (Word × Byte))) : (s.setObserver q).rs = s.rs := rfl
@[simp] theorem State.setObserver_ram (q : List (List (Word × Byte))) : (s.setObserver q).ram = s.ram := rfl
@[simp] theorem State.setObserver_params (q : List (List (Word × Byte))) : (s.setObserver q).params = s.params := rfl
@[simp] theorem State.setObserver_observer (q : List (List (Word × Byte))) : (s.setObserver q).observer = q := rfl
@[simp] theorem State.setObserver_draw (q : List (List (Word × Byte))) : (s.setObserver q).draw = s.draw := rfl
@[simp] theorem State.setObserver_flag (q : List (List (Word × Byte))) (g : Flag) : (s.setObserver q).flag g = s.flag g := rfl
@[simp] theorem State.setObserver_busRead (q : List (List (Word × Byte))) (addr : Word) : (s.setObserver q).busRead addr = s.busRead addr := rfl

/-! `setFlag`. -/

@[simp] theorem State.setFlag_a (f : Flag) (b : Bool) : (s.setFlag f b).a = s.a := rfl
@[simp] theorem State.setFlag_x (f : Flag) (b : Bool) : (s.setFlag f b).x = s.x := rfl
@[simp] theorem State.setFlag_y (f : Flag) (b : Bool) : (s.setFlag f b).y = s.y := rfl
@[simp] theorem State.setFlag_sp (f : Flag) (b : Bool) : (s.setFlag f b).sp = s.sp := rfl
@[simp] theorem State.setFlag_pc (f : Flag) (b : Bool) : (s.setFlag f b).pc = s.pc := rfl
@[simp] theorem State.setFlag_rs (f : Flag) (b : Bool) : (s.setFlag f b).rs = s.rs := rfl
@[simp] theorem State.setFlag_ram (f : Flag) (b : Bool) : (s.setFlag f b).ram = s.ram := rfl
@[simp] theorem State.setFlag_params (f : Flag) (b : Bool) : (s.setFlag f b).params = s.params := rfl
@[simp] theorem State.setFlag_observer (f : Flag) (b : Bool) : (s.setFlag f b).observer = s.observer := rfl
@[simp] theorem State.setFlag_draw (f : Flag) (b : Bool) : (s.setFlag f b).draw = s.draw := rfl
@[simp] theorem State.setFlag_busRead (f : Flag) (b : Bool) (addr : Word) : (s.setFlag f b).busRead addr = s.busRead addr := rfl

/-! `setN`. -/

@[simp] theorem State.setN_a (v : Byte) : (s.setN v).a = s.a := rfl
@[simp] theorem State.setN_x (v : Byte) : (s.setN v).x = s.x := rfl
@[simp] theorem State.setN_y (v : Byte) : (s.setN v).y = s.y := rfl
@[simp] theorem State.setN_sp (v : Byte) : (s.setN v).sp = s.sp := rfl
@[simp] theorem State.setN_pc (v : Byte) : (s.setN v).pc = s.pc := rfl
@[simp] theorem State.setN_rs (v : Byte) : (s.setN v).rs = s.rs := rfl
@[simp] theorem State.setN_ram (v : Byte) : (s.setN v).ram = s.ram := rfl
@[simp] theorem State.setN_params (v : Byte) : (s.setN v).params = s.params := rfl
@[simp] theorem State.setN_observer (v : Byte) : (s.setN v).observer = s.observer := rfl
@[simp] theorem State.setN_draw (v : Byte) : (s.setN v).draw = s.draw := rfl
@[simp] theorem State.setN_busRead (v : Byte) (addr : Word) : (s.setN v).busRead addr = s.busRead addr := rfl

/-! `setZN`. -/

@[simp] theorem State.setZN_a (v : Byte) : (s.setZN v).a = s.a := rfl
@[simp] theorem State.setZN_x (v : Byte) : (s.setZN v).x = s.x := rfl
@[simp] theorem State.setZN_y (v : Byte) : (s.setZN v).y = s.y := rfl
@[simp] theorem State.setZN_sp (v : Byte) : (s.setZN v).sp = s.sp := rfl
@[simp] theorem State.setZN_pc (v : Byte) : (s.setZN v).pc = s.pc := rfl
@[simp] theorem State.setZN_rs (v : Byte) : (s.setZN v).rs = s.rs := rfl
@[simp] theorem State.setZN_ram (v : Byte) : (s.setZN v).ram = s.ram := rfl
@[simp] theorem State.setZN_params (v : Byte) : (s.setZN v).params = s.params := rfl
@[simp] theorem State.setZN_observer (v : Byte) : (s.setZN v).observer = s.observer := rfl
@[simp] theorem State.setZN_draw (v : Byte) : (s.setZN v).draw = s.draw := rfl
@[simp] theorem State.setZN_busRead (v : Byte) (addr : Word) : (s.setZN v).busRead addr = s.busRead addr := rfl

/-! `setShiftFlags`. -/

@[simp] theorem State.setShiftFlags_a (c : Bool) (r : Byte) : (s.setShiftFlags c r).a = s.a := rfl
@[simp] theorem State.setShiftFlags_x (c : Bool) (r : Byte) : (s.setShiftFlags c r).x = s.x := rfl
@[simp] theorem State.setShiftFlags_y (c : Bool) (r : Byte) : (s.setShiftFlags c r).y = s.y := rfl
@[simp] theorem State.setShiftFlags_sp (c : Bool) (r : Byte) : (s.setShiftFlags c r).sp = s.sp := rfl
@[simp] theorem State.setShiftFlags_pc (c : Bool) (r : Byte) : (s.setShiftFlags c r).pc = s.pc := rfl
@[simp] theorem State.setShiftFlags_rs (c : Bool) (r : Byte) : (s.setShiftFlags c r).rs = s.rs := rfl
@[simp] theorem State.setShiftFlags_ram (c : Bool) (r : Byte) : (s.setShiftFlags c r).ram = s.ram := rfl
@[simp] theorem State.setShiftFlags_params (c : Bool) (r : Byte) : (s.setShiftFlags c r).params = s.params := rfl
@[simp] theorem State.setShiftFlags_observer (c : Bool) (r : Byte) : (s.setShiftFlags c r).observer = s.observer := rfl
@[simp] theorem State.setShiftFlags_draw (c : Bool) (r : Byte) : (s.setShiftFlags c r).draw = s.draw := rfl
@[simp] theorem State.setShiftFlags_busRead (c : Bool) (r : Byte) (addr : Word) : (s.setShiftFlags c r).busRead addr = s.busRead addr := rfl

/-! `compare`. -/

@[simp] theorem State.compare_a (r m : Byte) : (s.compare r m).a = s.a := rfl
@[simp] theorem State.compare_x (r m : Byte) : (s.compare r m).x = s.x := rfl
@[simp] theorem State.compare_y (r m : Byte) : (s.compare r m).y = s.y := rfl
@[simp] theorem State.compare_sp (r m : Byte) : (s.compare r m).sp = s.sp := rfl
@[simp] theorem State.compare_pc (r m : Byte) : (s.compare r m).pc = s.pc := rfl
@[simp] theorem State.compare_rs (r m : Byte) : (s.compare r m).rs = s.rs := rfl
@[simp] theorem State.compare_ram (r m : Byte) : (s.compare r m).ram = s.ram := rfl
@[simp] theorem State.compare_params (r m : Byte) : (s.compare r m).params = s.params := rfl
@[simp] theorem State.compare_observer (r m : Byte) : (s.compare r m).observer = s.observer := rfl
@[simp] theorem State.compare_draw (r m : Byte) : (s.compare r m).draw = s.draw := rfl
@[simp] theorem State.compare_busRead (r m : Byte) (addr : Word) : (s.compare r m).busRead addr = s.busRead addr := rfl

/-! `bitTest`. -/

@[simp] theorem State.bitTest_a (m : Byte) : (s.bitTest m).a = s.a := rfl
@[simp] theorem State.bitTest_x (m : Byte) : (s.bitTest m).x = s.x := rfl
@[simp] theorem State.bitTest_y (m : Byte) : (s.bitTest m).y = s.y := rfl
@[simp] theorem State.bitTest_sp (m : Byte) : (s.bitTest m).sp = s.sp := rfl
@[simp] theorem State.bitTest_pc (m : Byte) : (s.bitTest m).pc = s.pc := rfl
@[simp] theorem State.bitTest_rs (m : Byte) : (s.bitTest m).rs = s.rs := rfl
@[simp] theorem State.bitTest_ram (m : Byte) : (s.bitTest m).ram = s.ram := rfl
@[simp] theorem State.bitTest_params (m : Byte) : (s.bitTest m).params = s.params := rfl
@[simp] theorem State.bitTest_observer (m : Byte) : (s.bitTest m).observer = s.observer := rfl
@[simp] theorem State.bitTest_draw (m : Byte) : (s.bitTest m).draw = s.draw := rfl
@[simp] theorem State.bitTest_busRead (m : Byte) (addr : Word) : (s.bitTest m).busRead addr = s.busRead addr := rfl

/-! `addToA`. -/

@[simp] theorem State.addToA_x (m : Byte) : (s.addToA m).x = s.x := rfl
@[simp] theorem State.addToA_y (m : Byte) : (s.addToA m).y = s.y := rfl
@[simp] theorem State.addToA_sp (m : Byte) : (s.addToA m).sp = s.sp := rfl
@[simp] theorem State.addToA_pc (m : Byte) : (s.addToA m).pc = s.pc := rfl
@[simp] theorem State.addToA_rs (m : Byte) : (s.addToA m).rs = s.rs := rfl
@[simp] theorem State.addToA_ram (m : Byte) : (s.addToA m).ram = s.ram := rfl
@[simp] theorem State.addToA_params (m : Byte) : (s.addToA m).params = s.params := rfl
@[simp] theorem State.addToA_observer (m : Byte) : (s.addToA m).observer = s.observer := rfl
@[simp] theorem State.addToA_draw (m : Byte) : (s.addToA m).draw = s.draw := rfl
@[simp] theorem State.addToA_busRead (m : Byte) (addr : Word) : (s.addToA m).busRead addr = s.busRead addr := rfl

/-! `setRotZ`. -/

@[simp] theorem State.setRotZ_a (form : ShiftForm) (r : Byte) : (s.setRotZ form r).a = s.a := by unfold State.setRotZ; split <;> rfl
@[simp] theorem State.setRotZ_x (form : ShiftForm) (r : Byte) : (s.setRotZ form r).x = s.x := by unfold State.setRotZ; split <;> rfl
@[simp] theorem State.setRotZ_y (form : ShiftForm) (r : Byte) : (s.setRotZ form r).y = s.y := by unfold State.setRotZ; split <;> rfl
@[simp] theorem State.setRotZ_sp (form : ShiftForm) (r : Byte) : (s.setRotZ form r).sp = s.sp := by unfold State.setRotZ; split <;> rfl
@[simp] theorem State.setRotZ_pc (form : ShiftForm) (r : Byte) : (s.setRotZ form r).pc = s.pc := by unfold State.setRotZ; split <;> rfl
@[simp] theorem State.setRotZ_rs (form : ShiftForm) (r : Byte) : (s.setRotZ form r).rs = s.rs := by unfold State.setRotZ; split <;> rfl
@[simp] theorem State.setRotZ_ram (form : ShiftForm) (r : Byte) : (s.setRotZ form r).ram = s.ram := by unfold State.setRotZ; split <;> rfl
@[simp] theorem State.setRotZ_params (form : ShiftForm) (r : Byte) : (s.setRotZ form r).params = s.params := by unfold State.setRotZ; split <;> rfl
@[simp] theorem State.setRotZ_observer (form : ShiftForm) (r : Byte) : (s.setRotZ form r).observer = s.observer := by unfold State.setRotZ; split <;> rfl
@[simp] theorem State.setRotZ_draw (form : ShiftForm) (r : Byte) : (s.setRotZ form r).draw = s.draw := by unfold State.setRotZ; split <;> rfl
@[simp] theorem State.setRotZ_busRead (form : ShiftForm) (r : Byte) (addr : Word) : (s.setRotZ form r).busRead addr = s.busRead addr := by simp [State.busRead]

/-! `setRotateFlags`. -/

@[simp] theorem State.setRotateFlags_a (form : ShiftForm) (c : Bool) (r : Byte) : (s.setRotateFlags form c r).a = s.a := by simp [State.setRotateFlags]
@[simp] theorem State.setRotateFlags_x (form : ShiftForm) (c : Bool) (r : Byte) : (s.setRotateFlags form c r).x = s.x := by simp [State.setRotateFlags]
@[simp] theorem State.setRotateFlags_y (form : ShiftForm) (c : Bool) (r : Byte) : (s.setRotateFlags form c r).y = s.y := by simp [State.setRotateFlags]
@[simp] theorem State.setRotateFlags_sp (form : ShiftForm) (c : Bool) (r : Byte) : (s.setRotateFlags form c r).sp = s.sp := by simp [State.setRotateFlags]
@[simp] theorem State.setRotateFlags_pc (form : ShiftForm) (c : Bool) (r : Byte) : (s.setRotateFlags form c r).pc = s.pc := by simp [State.setRotateFlags]
@[simp] theorem State.setRotateFlags_rs (form : ShiftForm) (c : Bool) (r : Byte) : (s.setRotateFlags form c r).rs = s.rs := by simp [State.setRotateFlags]
@[simp] theorem State.setRotateFlags_ram (form : ShiftForm) (c : Bool) (r : Byte) : (s.setRotateFlags form c r).ram = s.ram := by simp [State.setRotateFlags]
@[simp] theorem State.setRotateFlags_params (form : ShiftForm) (c : Bool) (r : Byte) : (s.setRotateFlags form c r).params = s.params := by simp [State.setRotateFlags]
@[simp] theorem State.setRotateFlags_observer (form : ShiftForm) (c : Bool) (r : Byte) : (s.setRotateFlags form c r).observer = s.observer := by simp [State.setRotateFlags]
@[simp] theorem State.setRotateFlags_draw (form : ShiftForm) (c : Bool) (r : Byte) : (s.setRotateFlags form c r).draw = s.draw := by simp [State.setRotateFlags]
@[simp] theorem State.setRotateFlags_busRead (form : ShiftForm) (c : Bool) (r : Byte) (addr : Word) : (s.setRotateFlags form c r).busRead addr = s.busRead addr := by simp [State.busRead]

/-! `atOperand`, the state a handler runs in. -/

@[simp] theorem State.atOperand_a : s.atOperand.a = s.a := rfl
@[simp] theorem State.atOperand_x : s.atOperand.x = s.x := rfl
@[simp] theorem State.atOperand_y : s.atOperand.y = s.y := rfl
@[simp] theorem State.atOperand_sp : s.atOperand.sp = s.sp := rfl
@[simp] theorem State.atOperand_p : s.atOperand.p = s.p := rfl
@[simp] theorem State.atOperand_pc : s.atOperand.pc = s.pc + 1 := rfl
@[simp] theorem State.atOperand_rs : s.atOperand.rs = s.rs := rfl
@[simp] theorem State.atOperand_ram : s.atOperand.ram = s.ram := rfl
@[simp] theorem State.atOperand_params : s.atOperand.params = s.params := rfl
@[simp] theorem State.atOperand_observer : s.atOperand.observer = s.observer := rfl
@[simp] theorem State.atOperand_draw : s.atOperand.draw = s.draw := rfl
@[simp] theorem State.atOperand_flag (g : Flag) : s.atOperand.flag g = s.flag g := rfl
@[simp] theorem State.atOperand_busRead (addr : Word) : s.atOperand.busRead addr = s.busRead addr := rfl

/-- A bus read depends on the parameters and the work RAM alone. -/
theorem busRead_congr {s t : State} (hp : t.params = s.params) (hr : t.ram = s.ram) (addr : Word) :
    t.busRead addr = s.busRead addr := by
  simp [State.busRead, hp, hr]

/-- States with the same parameters and work RAM read the same memory. -/
theorem memoryKept_of_same {s t : State} (hp : t.params = s.params) (hr : t.ram = s.ram) :
    MemoryKept s t := busRead_congr hp hr

end Sys2Proof.Machine
end

