-- ==== Sys2Proof/Laws/Flags.lean ====
section
/-! SUPPORT. What each flag computation leaves in each flag. -/

namespace Sys2Proof.Machine

/-- A flag of a status byte with one flag written. -/
@[simp] theorem getFlag_putFlag (p : Byte) (f : Flag) (b : Bool) (g : Flag) :
    getFlag (putFlag p f b) g = if g = f then b else getFlag p g := by
  cases f <;> cases g <;> cases b <;>
    simp [getFlag, putFlag, Flag.mask, Flag.bit]

/-- Status bytes with the same flags are the same. -/
theorem status_ext {p q : Byte} (h : ∀ f, getFlag p f = getFlag q f) : p = q := by
  apply BitVec.eq_of_getLsbD_eq
  intro i hi
  have hc := h .c
  have hz := h .z
  have hI := h .i
  have hd := h .d
  have hb := h .b
  have hb2 := h .b2
  have hv := h .v
  have hn := h .n
  simp only [getFlag, Flag.bit] at *
  interval_cases i <;> assumption

/-- Writes of two different flags commute. -/
theorem putFlag_comm (p : Byte) {f g : Flag} (hfg : f ≠ g) (b c : Bool) :
    putFlag (putFlag p f b) g c = putFlag (putFlag p g c) f b := by
  apply status_ext
  intro k
  simp only [getFlag_putFlag]
  by_cases h1 : k = g <;> by_cases h2 : k = f <;> simp_all

variable (s : State)

@[simp] theorem State.setFlag_flag (f : Flag) (b : Bool) (g : Flag) :
    (s.setFlag f b).flag g = if g = f then b else s.flag g := getFlag_putFlag s.p f b g

@[simp] theorem State.setN_flag (v : Byte) (g : Flag) :
    (s.setN v).flag g = if g = .n then v.msb else s.flag g := State.setFlag_flag s .n v.msb g

@[simp] theorem State.setZN_flag (v : Byte) (g : Flag) :
    (s.setZN v).flag g = if g = .n then v.msb else if g = .z then v == 0 else s.flag g := by
  rw [State.setZN, State.setN_flag, State.setFlag_flag]

@[simp] theorem State.setShiftFlags_flag (c : Bool) (r : Byte) (g : Flag) :
    (s.setShiftFlags c r).flag g =
      if g = .n then r.msb else if g = .z then r == 0 else if g = .c then c else s.flag g := by
  rw [State.setShiftFlags, State.setZN_flag, State.setFlag_flag]

@[simp] theorem State.setRotZ_flag (form : ShiftForm) (r : Byte) (g : Flag) :
    (s.setRotZ form r).flag g =
      if g = .z ∧ rotWritesZ s.params.rotZ form = true then r == 0 else s.flag g := by
  unfold State.setRotZ
  by_cases h : rotWritesZ s.params.rotZ form = true <;> by_cases hg : g = .z <;> simp [h, hg]

@[simp] theorem State.setRotateFlags_flag (form : ShiftForm) (c : Bool) (r : Byte) (g : Flag) :
    (s.setRotateFlags form c r).flag g =
      if g = .z ∧ rotWritesZ s.params.rotZ form = true then r == 0
      else if g = .n then r.msb else if g = .c then c else s.flag g := by
  simp only [State.setRotateFlags, State.setRotZ_flag, State.setN_flag, State.setFlag_flag,
    State.setN_params, State.setFlag_params]

@[simp] theorem State.compare_flag (reg m : Byte) (g : Flag) :
    (s.compare reg m).flag g =
      if g = .n then (reg - m).msb else if g = .z then reg - m == 0
      else if g = .c then decide (m.toNat ≤ reg.toNat) else s.flag g := by
  rw [State.compare, State.setZN_flag, State.setFlag_flag]

@[simp] theorem State.bitTest_flag (m : Byte) (g : Flag) :
    (s.bitTest m).flag g =
      if g = .v then m.getLsbD 6 else if g = .n then m.getLsbD 7
      else if g = .z then s.a &&& m == 0 else s.flag g := by
  rw [State.bitTest, State.setFlag_flag, State.setFlag_flag, State.setFlag_flag]

/-- The accumulator after the shared adder (45_logic_arith.md R223). -/
@[simp] theorem State.addToA_a (m : Byte) :
    (s.addToA m).a = BitVec.ofNat 8 (adderSum s.a m (s.flag .c)) := rfl

@[simp] theorem State.addToA_flag (m : Byte) (g : Flag) :
    (s.addToA m).flag g =
      if g = .n then (BitVec.ofNat 8 (adderSum s.a m (s.flag .c))).msb
      else if g = .z then BitVec.ofNat 8 (adderSum s.a m (s.flag .c)) == 0
      else if g = .v then adderOverflow s.a m (BitVec.ofNat 8 (adderSum s.a m (s.flag .c)))
      else if g = .c then decide (255 < adderSum s.a m (s.flag .c))
      else s.flag g := by
  unfold State.addToA
  simp only [State.setZN_flag]
  change (if g = .n then _ else if g = .z then _ else ((s.setFlag .c _).setFlag .v _).flag g) = _
  rw [State.setFlag_flag, State.setFlag_flag]

/-- The flags of a pulled status byte (47_stack_flag_system.md R283). -/
theorem getFlag_pulledStatus (v : Byte) (g : Flag) :
    getFlag (pulledStatus v) g = if g = .b then false else if g = .b2 then true else getFlag v g := by
  revert v
  cases g <;> decide

/-- The flags of a pushed status byte (47_stack_flag_system.md R282). -/
theorem getFlag_pushedStatus (v : Byte) (g : Flag) :
    getFlag (pushedStatus v) g = if g = .b ∨ g = .b2 then true else getFlag v g := by
  revert v
  cases g <;> decide

end Sys2Proof.Machine
end

