-- ==== Sys2Proof/Laws/Memory.lean ====
section
/-! SUPPORT. The laws of a byte store: read after write, the canonical form, and that equal contents are
equal data. -/

namespace Sys2Proof.Machine

/-- The canonical form of a listed entry and the rest of the listing. -/
theorem Memory.wfFrom_cons (size lo k : Nat) (b : Byte) (m : Memory) :
    Memory.wfFrom size lo ((k, b) :: m) = true ↔
      lo ≤ k ∧ k < size ∧ b ≠ Memory.unlisted ∧ Memory.wfFrom size (k + 1) m = true := by
  simp [Memory.wfFrom, and_assoc]

/-- A store in canonical form from an index on is so from every lower index. -/
theorem Memory.wfFrom_mono {size lo lo' : Nat} (h : lo' ≤ lo) {m : Memory}
    (hm : Memory.wfFrom size lo m = true) : Memory.wfFrom size lo' m = true := by
  cases m with
  | nil => rfl
  | cons c m =>
    obtain ⟨k, b⟩ := c
    rw [Memory.wfFrom_cons] at hm ⊢
    exact ⟨h.trans hm.1, hm.2⟩

/-- An index below the canonical form's start is unlisted. -/
theorem Memory.get_below {size lo : Nat} {m : Memory} (hm : Memory.wfFrom size lo m = true)
    {a : Nat} (ha : a < lo) : m.get a = Memory.unlisted := by
  induction m generalizing lo with
  | nil => rfl
  | cons c m ih =>
    obtain ⟨k, b⟩ := c
    rw [Memory.wfFrom_cons] at hm
    have hne : a ≠ k := by omega
    simp only [Memory.get, hne, if_false]
    exact ih hm.2.2.2 (by omega)

/-- A read after a write gives the byte written at its index, and elsewhere what was there. -/
theorem Memory.get_set {size lo : Nat} {m : Memory} (hm : Memory.wfFrom size lo m = true)
    (a : Nat) (v : Byte) (i : Nat) : (m.set a v).get i = if i = a then v else m.get i := by
  induction m generalizing lo with
  | nil =>
    by_cases hv : v = Memory.unlisted <;> simp [Memory.set, Memory.get, hv]
  | cons c m ih =>
    obtain ⟨k, b⟩ := c
    rw [Memory.wfFrom_cons] at hm
    have hbelow : ∀ j, j < k + 1 → Memory.get m j = Memory.unlisted := fun j hj =>
      Memory.get_below hm.2.2.2 hj
    have ih' := ih hm.2.2.2
    simp only [Memory.set]
    split_ifs with h1 h2 h3 h4 <;> by_cases hik : i = k <;> by_cases hia : i = a <;>
      simp_all [Memory.get]
    all_goals first | omega | exact (hbelow _ (by omega)).symm | exact hbelow _ (by omega)

/-- A write keeps the canonical form. -/
theorem Memory.wfFrom_set {size lo : Nat} {m : Memory} (hm : Memory.wfFrom size lo m = true)
    {a : Nat} (hlo : lo ≤ a) (hsize : a < size) (v : Byte) :
    Memory.wfFrom size lo (m.set a v) = true := by
  induction m generalizing lo with
  | nil =>
    by_cases hv : v = Memory.unlisted <;> simp [Memory.set, Memory.wfFrom, hv, hlo, hsize]
  | cons c m ih =>
    obtain ⟨k, b⟩ := c
    have hm' := hm
    rw [Memory.wfFrom_cons] at hm'
    obtain ⟨h1, h2, h3, h4⟩ := hm'
    simp only [Memory.set]
    split_ifs with ha hv hak hv
    · exact hm
    · rw [Memory.wfFrom_cons, Memory.wfFrom_cons]
      exact ⟨hlo, hsize, hv, by omega, h2, h3, h4⟩
    · exact Memory.wfFrom_mono (by omega) h4
    · rw [Memory.wfFrom_cons]
      exact ⟨hlo, hsize, hv, hak ▸ h4⟩
    · rw [Memory.wfFrom_cons]
      exact ⟨h1, h2, h3, ih h4 (by omega)⟩

/-- A write inside the store keeps it in canonical form. -/
theorem Memory.wf_set {size : Nat} {m : Memory} (hm : Memory.wf size m = true) {a : Nat}
    (ha : a < size) (v : Byte) : Memory.wf size (m.set a v) = true :=
  Memory.wfFrom_set hm (Nat.zero_le a) ha v

/-- The tabulated store is in canonical form. -/
theorem Memory.wfFrom_tabulate (f : Nat → Byte) (lo n size : Nat) (h : lo + n ≤ size) :
    Memory.wfFrom size lo (Memory.tabulate f lo n) = true := by
  induction n generalizing lo with
  | zero => rfl
  | succ n ih =>
    have hrest := ih (lo + 1) (by omega)
    simp only [Memory.tabulate]
    split_ifs with hv
    · exact Memory.wfFrom_mono (by omega) hrest
    · rw [Memory.wfFrom_cons]
      exact ⟨le_refl _, by omega, hv, hrest⟩

/-- The store of a byte list is in canonical form. -/
theorem Memory.wfFrom_ofBytes (bs : List Byte) (lo size : Nat) (h : lo + bs.length ≤ size) :
    Memory.wfFrom size lo (Memory.ofBytes lo bs) = true := by
  induction bs generalizing lo with
  | nil => rfl
  | cons b bs ih =>
    have hrest := ih (lo + 1) (by simp at h; omega)
    simp only [Memory.ofBytes]
    split_ifs with hv
    · exact Memory.wfFrom_mono (by omega) hrest
    · rw [Memory.wfFrom_cons]
      exact ⟨le_refl _, by simp at h; omega, hv, hrest⟩

/-- The store of a byte list holds the bytes of the list. -/
theorem Memory.get_ofBytes (bs : List Byte) (lo i : Nat) :
    (Memory.ofBytes lo bs).get (lo + i) = bs.getD i Memory.unlisted := by
  induction bs generalizing lo i with
  | nil => simp [Memory.ofBytes, Memory.get]
  | cons b bs ih =>
    have hbelow : (Memory.ofBytes (lo + 1) bs).get lo = Memory.unlisted :=
      Memory.get_below (Memory.wfFrom_ofBytes bs (lo + 1) (lo + 1 + bs.length) (le_refl _))
        (Nat.lt_succ_self lo)
    cases i with
    | zero =>
      simp only [Memory.ofBytes]
      split_ifs with hv
      · simpa [hv] using hbelow
      · simp [Memory.get]
    | succ i =>
      have hi : lo + (i + 1) = lo + 1 + i := by omega
      simp only [Memory.ofBytes]
      split_ifs with hv
      · rw [hi, ih]; simp
      · rw [Memory.get, if_neg (by omega), hi, ih]; simp

/-- Stores in canonical form that hold the same bytes are the same data. -/
theorem Memory.ext_of_get {size lo : Nat} {m m' : Memory} (hm : Memory.wfFrom size lo m = true)
    (hm' : Memory.wfFrom size lo m' = true) (h : ∀ i, m.get i = m'.get i) : m = m' := by
  induction m generalizing lo m' with
  | nil =>
    cases m' with
    | nil => rfl
    | cons c m' =>
      obtain ⟨k, b⟩ := c
      rw [Memory.wfFrom_cons] at hm'
      have := h k
      simp [Memory.get] at this
      exact absurd this.symm hm'.2.2.1
  | cons c m ih =>
    obtain ⟨k, b⟩ := c
    have hm0 := hm
    rw [Memory.wfFrom_cons] at hm
    cases m' with
    | nil =>
      have := h k
      simp [Memory.get] at this
      exact absurd this hm.2.2.1
    | cons c' m' =>
      obtain ⟨k', b'⟩ := c'
      have hm0' := hm'
      rw [Memory.wfFrom_cons] at hm'
      have hkk : k = k' := by
        rcases Nat.lt_trichotomy k k' with hlt | heq | hgt
        · have hz : Memory.get ((k', b') :: m') k = Memory.unlisted :=
            Memory.get_below (lo := k') (size := size)
              ((Memory.wfFrom_cons ..).2 ⟨le_refl _, hm'.2⟩) hlt
          have := h k
          rw [hz] at this
          simp [Memory.get] at this
          exact absurd this hm.2.2.1
        · exact heq
        · have hz : Memory.get ((k, b) :: m) k' = Memory.unlisted :=
            Memory.get_below (lo := k) (size := size)
              ((Memory.wfFrom_cons ..).2 ⟨le_refl _, hm.2⟩) hgt
          have := h k'
          rw [hz] at this
          simp [Memory.get] at this
          exact absurd this.symm hm'.2.2.1
      subst hkk
      have hb : b = b' := by simpa [Memory.get] using h k
      subst hb
      have hrest : ∀ i, Memory.get m i = Memory.get m' i := by
        intro i
        by_cases hi : i < k + 1
        · rw [Memory.get_below hm.2.2.2 hi, Memory.get_below hm'.2.2.2 hi]
        · have := h i
          simpa [Memory.get, show i ≠ k by omega] using this
      rw [ih hm.2.2.2 hm'.2.2.2 hrest]

/-- The RAM index is the address modulo the size of the work RAM (20_memory.md R54). -/
theorem ramIndex_eq_mod (addr : Word) : ramIndex addr = addr.toNat % 2048 := by
  have hand : ramIndex addr = addr.toNat &&& 2047 := by
    unfold ramIndex
    rw [BitVec.toNat_and]
    rfl
  rw [hand]
  exact Nat.and_two_pow_sub_one_eq_mod addr.toNat 11

/-- A RAM index is inside the work RAM. -/
theorem ramIndex_lt (addr : Word) : ramIndex addr < ramBytes := by
  rw [ramIndex_eq_mod]
  exact Nat.mod_lt _ (by decide)

/-- A PRG-ROM index is inside the image (20_memory.md R56). -/
theorem prgIndex_lt (size : PrgSize) (addr : Word) : prgIndex size addr < prgBytes size := by
  have hlt : addr.toNat < 65536 := addr.isLt
  cases size with
  | k16 =>
    show (addr.toNat - 32768) % 16384 < 16384
    exact Nat.mod_lt _ (by omega)
  | k32 =>
    show addr.toNat - 32768 < 32768
    omega

end Sys2Proof.Machine
end

