-- ==== Sys2Proof/Laws/Ops.lean ====
section
/-! SUPPORT. One lemma per shared operation: the regions of the bus, the bus read and write, and the
stack primitives, each with everything it can do. -/

namespace Sys2Proof.Machine

/-! Chains of operations that can raise. -/

@[simp] theorem except_ok_bind {α β : Type} (a : α) (f : α → Except Fault β) :
    (Except.ok a >>= f) = f a := rfl

@[simp] theorem except_error_bind {α β : Type} (e : Fault) (f : α → Except Fault β) :
    ((Except.error e : Except Fault α) >>= f) = .error e := rfl

/-- A chain completes only if its first operation does. -/
theorem bind_eq_ok {α β : Type} {x : Except Fault α} {f : α → Except Fault β} {b : β} :
    (x >>= f) = .ok b ↔ ∃ a, x = .ok a ∧ f a = .ok b := by
  cases x <;> simp

/-- A chain raises if its first operation does, or if what follows it does. -/
theorem bind_eq_error {α β : Type} {x : Except Fault α} {f : α → Except Fault β} {e : Fault} :
    (x >>= f) = .error e ↔ x = .error e ∨ ∃ a, x = .ok a ∧ f a = .error e := by
  cases x <;> simp

@[simp] theorem outcome_ok (t : State) : outcome (.ok t) = .next t := rfl

@[simp] theorem outcome_error (f : Fault) : outcome (.error f) = .fault f := rfl

@[simp] theorem outcome_eq_next {r : Except Fault State} {t : State} :
    outcome r = .next t ↔ r = .ok t := by
  cases r <;> simp [outcome]

@[simp] theorem outcome_eq_fault {r : Except Fault State} {f : Fault} :
    outcome r = .fault f ↔ r = .error f := by
  cases r <;> simp [outcome]

@[simp] theorem outcome_ne_refused (r : Except Fault State) (q : Refusal) :
    outcome r ≠ .refused q := by
  cases r <;> simp [outcome]

/-! The regions (20_memory.md R51). -/

theorem region_eq_ram {addr : Word} : region addr = .ram ↔ addr.toNat ≤ 0x1FFF := by
  unfold region
  split_ifs <;> simp_all

theorem region_eq_video {addr : Word} : region addr = .video ↔ InVideoWindow addr := by
  unfold region InVideoWindow
  split_ifs <;> simp <;> omega

theorem region_eq_unmapped {addr : Word} :
    region addr = .unmapped ↔ 0x4000 ≤ addr.toNat ∧ addr.toNat ≤ 0x7FFF := by
  unfold region
  split_ifs <;> simp <;> omega

theorem region_eq_prg {addr : Word} : region addr = .prg ↔ InPrgWindow addr := by
  unfold region InPrgWindow
  split_ifs <;> simp <;> omega

/-- Outside the video window and PRG-ROM an address is work RAM or unmapped. -/
theorem region_ram_or_unmapped {addr : Word} (hv : ¬ InVideoWindow addr) (hp : ¬ InPrgWindow addr) :
    region addr = .ram ∨ region addr = .unmapped := by
  rw [← region_eq_video] at hv
  rw [← region_eq_prg] at hp
  cases h : region addr <;> simp_all

/-- A page-0 address is its byte. -/
theorem zext16_toNat (v : Byte) : (zext16 v).toNat = v.toNat := by
  have hv : v.toNat < 256 := v.isLt
  simp only [zext16, BitVec.toNat_setWidth]
  omega

/-- Page 0 lies in work RAM (20_memory.md R54). -/
@[simp] theorem region_zext16 (v : Byte) : region (zext16 v) = .ram := by
  rw [region_eq_ram, zext16_toNat]
  have : v.toNat < 256 := v.isLt
  omega

@[simp] theorem ramIndex_zext16 (v : Byte) : ramIndex (zext16 v) = v.toNat := by
  rw [ramIndex_eq_mod, zext16_toNat]
  have : v.toNat < 256 := v.isLt
  omega

theorem stackAddr_toNat (sp : Byte) : (stackAddr sp).toNat = 0x100 + sp.toNat := by
  have : sp.toNat < 256 := sp.isLt
  unfold stackAddr
  rw [BitVec.toNat_add, zext16_toNat]
  have h : (0x0100 : Word).toNat = 256 := rfl
  rw [h]
  omega

/-- The stack page lies in work RAM (10_state.md R32). -/
@[simp] theorem region_stackAddr (sp : Byte) : region (stackAddr sp) = .ram := by
  rw [region_eq_ram, stackAddr_toNat]
  have : sp.toNat < 256 := sp.isLt
  omega

@[simp] theorem ramIndex_stackAddr (sp : Byte) : ramIndex (stackAddr sp) = 0x100 + sp.toNat := by
  rw [ramIndex_eq_mod, stackAddr_toNat]
  have : sp.toNat < 256 := sp.isLt
  omega

/-! The bus read (20_memory.md R52). -/

theorem busRead_ram {addr : Word} (h : region addr = .ram) (s : State) :
    s.busRead addr = .ok (Memory.get s.ram (ramIndex addr)) := by
  simp [State.busRead, readStorage, h]

theorem busRead_video {addr : Word} (h : region addr = .video) (s : State) :
    s.busRead addr = .error (.unimplementedSubsystem addr .read) := by
  simp [State.busRead, readStorage, h, raise]

theorem busRead_unmapped {addr : Word} (h : region addr = .unmapped) (s : State) :
    s.busRead addr = .ok 0x00 := by
  simp [State.busRead, readStorage, h]

theorem busRead_prg {addr : Word} (h : region addr = .prg) (s : State) :
    s.busRead addr = .ok (prgRead s.params.prgSize s.params.prg addr) := by
  simp [State.busRead, readStorage, h]

/-- A bus read that raises is one of the video window. -/
theorem busRead_error {s : State} {addr : Word} {f : Fault} (h : s.busRead addr = .error f) :
    InVideoWindow addr ∧ f = .unimplementedSubsystem addr .read := by
  cases hr : region addr with
  | ram => rw [busRead_ram hr] at h; cases h
  | video =>
    rw [busRead_video hr] at h
    exact ⟨region_eq_video.1 hr, (Except.error.inj h).symm⟩
  | unmapped => rw [busRead_unmapped hr] at h; cases h
  | prg => rw [busRead_prg hr] at h; cases h

/-- A bus read that completes is outside the video window. -/
theorem not_video_of_busRead {s : State} {addr : Word} {v : Byte} (h : s.busRead addr = .ok v) :
    ¬ InVideoWindow addr := by
  intro hv
  rw [busRead_video (region_eq_video.2 hv)] at h
  cases h

@[simp] theorem busRead_zext16 (s : State) (v : Byte) :
    s.busRead (zext16 v) = .ok (Memory.get s.ram v.toNat) := by
  rw [busRead_ram (region_zext16 v), ramIndex_zext16]

@[simp] theorem busRead_stackAddr (s : State) (sp : Byte) :
    s.busRead (stackAddr sp) = .ok (Memory.get s.ram (0x100 + sp.toNat)) := by
  rw [busRead_ram (region_stackAddr sp), ramIndex_stackAddr]

/-! The bus write (20_memory.md R53). -/

theorem busWrite_ram {addr : Word} (h : region addr = .ram) (s : State) (v : Byte) :
    s.busWrite addr v = .ok (s.setRam (Memory.set s.ram (ramIndex addr) v)) := by
  simp [State.busWrite, h]

theorem busWrite_video {addr : Word} (h : region addr = .video) (s : State) (v : Byte) :
    s.busWrite addr v = .error (.unimplementedSubsystem addr .write) := by
  simp [State.busWrite, h, raise]

theorem busWrite_unmapped {addr : Word} (h : region addr = .unmapped) (s : State) (v : Byte) :
    s.busWrite addr v = .ok s := by
  simp [State.busWrite, h]

theorem busWrite_prg {addr : Word} (h : region addr = .prg) (s : State) (v : Byte) :
    s.busWrite addr v = .error (.illegalWrite addr v) := by
  simp [State.busWrite, h, raise]

/-- Everything a bus write that completes can do: store a byte of work RAM, or, at an unmapped address,
nothing. -/
theorem busWrite_cases {s t : State} {addr : Word} {v : Byte} (h : s.busWrite addr v = .ok t) :
    (region addr = .ram ∧ t = s.setRam (Memory.set s.ram (ramIndex addr) v)) ∨
      (region addr = .unmapped ∧ t = s) := by
  cases hr : region addr with
  | ram => rw [busWrite_ram hr] at h; exact .inl ⟨rfl, (Except.ok.inj h).symm⟩
  | video => rw [busWrite_video hr] at h; cases h
  | unmapped => rw [busWrite_unmapped hr] at h; exact .inr ⟨rfl, (Except.ok.inj h).symm⟩
  | prg => rw [busWrite_prg hr] at h; cases h

/-- A bus write that raises is one of the video window or of PRG-ROM. -/
theorem busWrite_error {s : State} {addr : Word} {v : Byte} {f : Fault}
    (h : s.busWrite addr v = .error f) :
    (InVideoWindow addr ∧ f = .unimplementedSubsystem addr .write) ∨
      (InPrgWindow addr ∧ f = .illegalWrite addr v) := by
  cases hr : region addr with
  | ram => rw [busWrite_ram hr] at h; cases h
  | video =>
    rw [busWrite_video hr] at h
    exact .inl ⟨region_eq_video.1 hr, (Except.error.inj h).symm⟩
  | unmapped => rw [busWrite_unmapped hr] at h; cases h
  | prg =>
    rw [busWrite_prg hr] at h
    exact .inr ⟨region_eq_prg.1 hr, (Except.error.inj h).symm⟩

/-- A bus write leaves everything but the work RAM. -/
theorem busWrite_setRam {s t : State} {addr : Word} {v : Byte} (h : s.busWrite addr v = .ok t) :
    ∃ m, t = s.setRam m := by
  rcases busWrite_cases h with ⟨_, rfl⟩ | ⟨_, rfl⟩
  · exact ⟨_, rfl⟩
  · exact ⟨t.ram, rfl⟩

/-- A bus write keeps the canonical form. -/
theorem busWrite_canonical {s t : State} {addr : Word} {v : Byte} (h : s.busWrite addr v = .ok t)
    (hs : MemoryCanonical s) : MemoryCanonical t := by
  rcases busWrite_cases h with ⟨_, rfl⟩ | ⟨_, rfl⟩
  · exact ⟨Memory.wf_set hs.1 (ramIndex_lt addr) v, hs.2⟩
  · exact hs

/-- The byte of work RAM stored, read back, and every other address as before. -/
theorem busRead_setRam_set {s : State} (hs : MemoryCanonical s) {ea : Word} (hr : region ea = .ram)
    (v : Byte) :
    MemoryHolds ea v (s.setRam (Memory.set s.ram (ramIndex ea) v)) ∧
      MemoryKeptExcept ea s (s.setRam (Memory.set s.ram (ramIndex ea) v)) := by
  have hget := Memory.get_set (m := s.ram) (size := ramBytes) (lo := 0) hs.1 (ramIndex ea) v
  refine ⟨?_, ?_⟩
  · intro addr hsame
    simp only [sameRamByte, Bool.and_eq_true, beq_iff_eq] at hsame
    rw [busRead_ram hsame.1.2, State.setRam_ram, hget, if_pos hsame.2.symm]
  · intro addr hne
    cases ha : region addr with
    | ram =>
      have hi : ramIndex addr ≠ ramIndex ea := by
        intro heq
        simp [sameRamByte, hr, ha, heq] at hne
      rw [busRead_ram ha, busRead_ram ha, State.setRam_ram, hget, if_neg hi]
    | video => rw [busRead_video ha, busRead_video ha]
    | unmapped => rw [busRead_unmapped ha, busRead_unmapped ha]
    | prg => rw [busRead_prg ha, busRead_prg ha]; rfl

/-- The memory after a bus write that completes. -/
theorem busWrite_memory {s t : State} {ea : Word} {v : Byte} (h : s.busWrite ea v = .ok t)
    (hs : MemoryCanonical s) :
    MemoryHolds ea v t ∧ MemoryKeptExcept ea s t := by
  rcases busWrite_cases h with ⟨hr, rfl⟩ | ⟨hr, rfl⟩
  · exact busRead_setRam_set hs hr v
  · exact ⟨fun _ hsame => by simp [sameRamByte, hr] at hsame, fun _ _ => rfl⟩

/-- A sequence of bus writes leaves everything but the work RAM, and keeps the canonical form. -/
theorem busWrites_frame {ws : List (Word × Byte)} {s t : State} (h : s.busWrites ws = .ok t) :
    (∃ m, t = s.setRam m) ∧ (MemoryCanonical s → MemoryCanonical t) := by
  induction ws generalizing s with
  | nil =>
    cases h
    exact ⟨⟨t.ram, rfl⟩, id⟩
  | cons w ws ih =>
    obtain ⟨addr, v⟩ := w
    obtain ⟨u, hu, hrest⟩ := bind_eq_ok.1 h
    obtain ⟨⟨m, rfl⟩, hc⟩ := ih hrest
    obtain ⟨m', rfl⟩ := busWrite_setRam hu
    exact ⟨⟨m, rfl⟩, fun hs => hc (busWrite_canonical hu hs)⟩

/-! The stack (40_engine.md R120 to R123). -/

/-- A push never raises. -/
@[simp] theorem push_eq (s : State) (v : Byte) :
    s.push v = .ok ((s.setRam (Memory.set s.ram (0x100 + s.sp.toNat) v)).setSp (s.sp - 1)) := by
  simp [State.push, busWrite_ram (region_stackAddr s.sp)]

/-- A pop never raises. -/
@[simp] theorem pop_eq (s : State) :
    s.pop = .ok (Memory.get s.ram (0x100 + (s.sp + 1).toNat), s.setSp (s.sp + 1)) := by
  simp [State.pop]

/-- A 16-bit push never raises. -/
theorem push16_eq (s : State) (v : Word) :
    s.push16 v = .ok ((s.setRam (Memory.set (Memory.set s.ram (0x100 + s.sp.toNat) (highByte v))
      (0x100 + (s.sp - 1).toNat) (lowByte v))).setSp (s.sp - 1 - 1)) := by
  simp [State.push16, State.setRam, State.setSp]

/-- A 16-bit pop never raises. -/
theorem pop16_eq (s : State) :
    s.pop16 = .ok (joinBytes (Memory.get s.ram (0x100 + (s.sp + 1).toNat))
      (Memory.get s.ram (0x100 + (s.sp + 1 + 1).toNat)), s.setSp (s.sp + 1 + 1)) := by
  simp [State.pop16, State.setSp]

/-- A write to the stack page keeps the canonical form. -/
theorem Memory.wf_set_stack {m : Memory} (hm : Memory.wf ramBytes m = true) (sp v : Byte) :
    Memory.wf ramBytes (Memory.set m (0x100 + sp.toNat) v) = true := by
  have : sp.toNat < 256 := sp.isLt
  exact Memory.wf_set hm (by unfold ramBytes; omega) v

/-! Bytes of 16-bit values (20_memory.md R58, R60). -/

theorem joinBytes_toNat (lo hi : Byte) : (joinBytes lo hi).toNat = lo.toNat + 256 * hi.toNat := by
  have h1 : lo.toNat < 2 ^ 8 := lo.isLt
  show (hi ++ lo).toNat = _
  rw [BitVec.toNat_append, ← Nat.shiftLeft_add_eq_or_of_lt h1, Nat.shiftLeft_eq]
  omega

/-- A 16-bit value is its two bytes. -/
@[simp] theorem joinBytes_low_high (v : Word) : joinBytes (lowByte v) (highByte v) = v := by
  apply BitVec.eq_of_toNat_eq
  rw [joinBytes_toNat]
  have : v.toNat < 65536 := v.isLt
  simp only [lowByte, highByte, BitVec.toNat_setWidth, BitVec.toNat_ushiftRight,
    Nat.shiftRight_eq_div_pow]
  omega

/-- A 16-bit read that completes. -/
theorem read16_eq_ok {s : State} {addr : Word} {v : Word} :
    s.read16 addr = .ok v ↔
      ∃ lo hi, s.busRead addr = .ok lo ∧ s.busRead (addr + 1) = .ok hi ∧ v = joinBytes lo hi := by
  simp only [State.read16, bind_eq_ok]
  constructor
  · rintro ⟨lo, h1, hi, h2, h3⟩
    exact ⟨lo, hi, h1, h2, (Except.ok.inj h3).symm⟩
  · rintro ⟨lo, hi, h1, h2, rfl⟩
    exact ⟨lo, h1, hi, h2, rfl⟩

/-- A 16-bit read raises at the first of its two bytes that lies in the video window. -/
theorem read16_error {s : State} {addr : Word} {f : Fault} (h : s.read16 addr = .error f) :
    (InVideoWindow addr ∧ f = .unimplementedSubsystem addr .read) ∨
      (¬ InVideoWindow addr ∧ InVideoWindow (addr + 1) ∧
        f = .unimplementedSubsystem (addr + 1) .read) := by
  simp only [State.read16, bind_eq_error] at h
  rcases h with h | ⟨lo, h1, h | ⟨hi, h2, h⟩⟩
  · exact .inl (busRead_error h)
  · exact .inr ⟨not_video_of_busRead h1, busRead_error h⟩
  · cases h

end Sys2Proof.Machine
end

