-- ==== Sys2Proof/Laws/Operands.lean ====
section
/-! SUPPORT. What the resolver and the three operand shapes can do, said once. -/

namespace Sys2Proof.Machine

/-! The resolver. -/

/-- The pointer at a page-0 byte never raises (40_engine.md R117, R118). -/
@[simp] theorem zeroPagePointer_eq (s : State) (ptr : Byte) :
    s.zeroPagePointer ptr =
      .ok (joinBytes (Memory.get s.ram ptr.toNat) (Memory.get s.ram (ptr + 1).toNat)) := by
  simp [State.zeroPagePointer]

/-- With a resolving mode the resolver raises only for an operand byte. -/
theorem effectiveAddress_error {e : OpcodeEntry} {s : State} {f : Fault}
    (hm : e.mode ≠ .noneAddressing) (h : effectiveAddress e s = .error f) :
    s.busRead s.pc = .error f ∨
      (e.mode ∈ [Mode.absolute, .absoluteX, .absoluteY] ∧ s.read16 s.pc = .error f) := by
  cases hmode : e.mode <;> simp_all [effectiveAddress, bind_eq_error]

/-- Outside NoneAddressing the resolver never raises UnsupportedAddressingMode. -/
theorem effectiveAddress_ne_unsupported {e : OpcodeEntry} (hm : e.mode ≠ .noneAddressing) (s : State)
    (op : Byte) (m : Mode) : effectiveAddress e s ≠ .error (.unsupportedAddressingMode op m) := by
  intro h
  rcases effectiveAddress_error hm h with h | ⟨_, h⟩
  · exact absurd (busRead_error h).2 (by simp)
  · rcases read16_error h with ⟨_, h⟩ | ⟨_, _, h⟩ <;> simp at h

/-- The resolver reads the index registers, PC, the parameters and the work RAM, and nothing else. -/
theorem effectiveAddress_congr (e : OpcodeEntry) {s t : State} (hx : t.x = s.x) (hy : t.y = s.y)
    (hpc : t.pc = s.pc) (hp : t.params = s.params) (hr : t.ram = s.ram) :
    effectiveAddress e t = effectiveAddress e s := by
  have hread : ∀ addr, t.busRead addr = s.busRead addr := busRead_congr hp hr
  simp [effectiveAddress, State.read16, State.zeroPagePointer, hread, hx, hy, hpc]

/-! The shapes. -/

variable {e : OpcodeEntry} {s : State}

theorem operandByte_eq_ok {v : Byte} :
    operandByte e s = .ok v ↔ ∃ ea, effectiveAddress e s = .ok ea ∧ s.busRead ea = .ok v :=
  bind_eq_ok

/-- A reading handler completes exactly when the byte at the effective address can be read. -/
theorem withOperand_eq_ok {f : State → Byte → State} {t : State} :
    withOperand e s f = .ok t ↔ ∃ v, operandByte e s = .ok v ∧ t = f s v := by
  unfold withOperand
  rw [bind_eq_ok]
  constructor
  · rintro ⟨v, h1, h2⟩
    exact ⟨v, h1, (Except.ok.inj h2).symm⟩
  · rintro ⟨v, h1, rfl⟩
    exact ⟨v, h1, rfl⟩

/-- A storing handler completes exactly when the effective address resolves and takes the byte. -/
theorem storeByte_eq_ok {v : Byte} {t : State} :
    storeByte e s v = .ok t ↔ ∃ ea, effectiveAddress e s = .ok ea ∧ s.busWrite ea v = .ok t :=
  bind_eq_ok

/-- A read-modify-write handler completes exactly when its read and its write do. -/
theorem modifyByte_eq_ok {result : State → Byte → Byte} {flags : State → Byte → Byte → State}
    {t : State} :
    modifyByte e s result flags = .ok t ↔
      ∃ ea v u, effectiveAddress e s = .ok ea ∧ s.busRead ea = .ok v ∧
        s.busWrite ea (result s v) = .ok u ∧ t = flags u v (result s v) := by
  unfold modifyByte
  simp only [bind_eq_ok]
  constructor
  · rintro ⟨ea, h1, v, h2, u, h3, h4⟩
    exact ⟨ea, v, u, h1, h2, h3, (Except.ok.inj h4).symm⟩
  · rintro ⟨ea, v, u, h1, h2, h3, rfl⟩
    exact ⟨ea, h1, v, h2, u, h3, rfl⟩

/-- A row whose meaning is a reading handler is a row that reads its operand. -/
theorem readsOperand_of {i : Instr} {f : State → Byte → State}
    {effect : State → Byte → State → Prop}
    (hexec : ∀ s, exec i s = outcome (withOperand i.entry s f))
    (heffect : ∀ s v, effect s v (f s v))
    (hsame : ∀ s v, (f s v).params = s.params ∧ (f s v).ram = s.ram) :
    ReadsOperand i effect := by
  intro s
  refine ⟨fun g h => ?_, fun ea hea hv => ?_, fun ea v hea hv => ?_⟩
  · simp [hexec, withOperand, operandByte, h]
  · simp [hexec, withOperand, operandByte, hea, busRead_video (region_eq_video.2 hv)]
  · exact ⟨f s v, by simp [hexec, withOperand, operandByte, hea, hv], heffect s v,
      memoryKept_of_same (hsame s v).1 (hsame s v).2⟩

/-- A row whose meaning is a storing handler is a row that stores a byte. -/
theorem storesByte_of {i : Instr} {value : State → Byte}
    (hexec : ∀ s, exec i s = outcome (storeByte i.entry s (value s))) : StoresByte i value := by
  intro s
  refine ⟨fun g h => by simp [hexec, storeByte, h], fun ea hea => ⟨fun hv => ?_, fun hp => ?_, ?_⟩⟩
  · simp [hexec, storeByte, hea, busWrite_video (region_eq_video.2 hv)]
  · simp [hexec, storeByte, hea, busWrite_prg (region_eq_prg.2 hp)]
  · intro hv hp
    have hok : ∃ t, s.busWrite ea (value s) = .ok t := by
      rcases region_ram_or_unmapped hv hp with h | h
      · exact ⟨_, busWrite_ram h s _⟩
      · exact ⟨_, busWrite_unmapped h s _⟩
    obtain ⟨t, ht⟩ := hok
    refine ⟨t, by simp [hexec, storeByte, hea, ht], ?_, busWrite_memory ht⟩
    obtain ⟨m, rfl⟩ := busWrite_setRam ht
    exact ⟨fun _ => rfl, fun _ => rfl, fun _ => rfl, fun _ => rfl, fun _ => rfl, fun _ => rfl,
      fun _ _ => rfl, rfl, rfl, rfl⟩

/-- A row whose meaning is a read-modify-write handler is a row that modifies a byte. The flags it
writes depend on neither memory nor the byte written, and leave memory alone. -/
theorem modifiesByte_of {i : Instr} {result result' : State → Byte → Byte}
    {flags : State → Byte → Byte → State} {effect : State → Byte → State → Prop}
    (hexec : ∀ s, exec i s = outcome (modifyByte i.entry s result' flags))
    (hresult : ∀ s v, result' s v = result s v)
    (heffect : ∀ s m v, effect s v (flags (s.setRam m) v (result s v)))
    (hsame : ∀ s v r, (flags s v r).params = s.params ∧ (flags s v r).ram = s.ram) :
    ModifiesByte i result effect := by
  intro s
  refine ⟨fun g h => by simp [hexec, modifyByte, h], fun ea hea hv => ?_,
    fun ea v hea hv => ⟨fun hp => ?_, fun hp => ?_⟩⟩
  · simp [hexec, modifyByte, hea, busRead_video (region_eq_video.2 hv)]
  · simp [hexec, modifyByte, hea, hv, busWrite_prg (region_eq_prg.2 hp), hresult]
  · have hok : ∃ t, s.busWrite ea (result s v) = .ok t := by
      rcases region_ram_or_unmapped (not_video_of_busRead hv) hp with h | h
      · exact ⟨_, busWrite_ram h s _⟩
      · exact ⟨_, busWrite_unmapped h s _⟩
    obtain ⟨t, ht⟩ := hok
    refine ⟨flags t v (result s v), by simp [hexec, modifyByte, hea, hv, ht, hresult], ?_, fun hs => ?_⟩
    · obtain ⟨m, rfl⟩ := busWrite_setRam ht
      exact heffect s m v
    · have hread : ∀ addr, (flags t v (result s v)).busRead addr = t.busRead addr :=
        busRead_congr (hsame t v _).1 (hsame t v _).2
      obtain ⟨h1, h2⟩ := busWrite_memory ht hs
      exact ⟨fun addr h => (hread addr).trans (h1 addr h), fun addr h => (hread addr).trans (h2 addr h)⟩

end Sys2Proof.Machine
end

