-- ==== Sys2Proof/Laws/Engine.lean ====
section
/-! SUPPORT. What the step, the length skip, the observer and the storage of a program's bytes can do,
said once. -/

namespace Sys2Proof.Machine

variable {s t : State}

/-! The step. -/

theorem step_running (h : s.rs = .running) : step s = engineStep s := by
  simp [step, hostStep, h]

theorem step_halted (h : s.rs = .halted) : step s = engineStep (s.setRs .running) := by
  simp [step, hostStep, h]

theorem step_faulted {f : Fault} (h : s.rs = .faulted f) : step s = .refused (.noStepFromFaulted f) := by
  simp [step, hostStep, h]

/-- A fetch that raises ends the step. -/
theorem engineStep_fetch_error {f : Fault} (h : s.busRead s.pc = .error f) : engineStep s = .fault f := by
  simp [engineStep, h]

/-- A fetched byte with no entry raises UnrecognizedOpcode (40_engine.md R105). -/
theorem engineStep_absent {b : Byte} (h : s.busRead s.pc = .ok b)
    (hc : tableCell s.params.tableEdits b = .absent) :
    engineStep s = .fault (.unrecognizedOpcode b s.pc) := by
  simp [engineStep, h, hc]

/-- A fetched byte with a row of the table runs the row. -/
theorem engineStep_row {b : Byte} {i : Instr} (h : s.busRead s.pc = .ok b)
    (hc : tableCell s.params.tableEdits b = .row i) :
    engineStep s = finishStep i.entry s.atOperand (exec i s.atOperand) := by
  simp [engineStep, h, hc]

/-- A fetched byte with an entry of another table runs the entry (log 9). -/
theorem engineStep_other {b : Byte} {e : OpcodeEntry} (h : s.busRead s.pc = .ok b)
    (hc : s.params.tableEdits.lookup b = some (some e)) :
    engineStep s =
      finishStep { e with code := b } s.atOperand (executeEntry { e with code := b } s.atOperand) := by
  simp [engineStep, h, tableCell, hc]

/-- The name of a mnemonic is read back as that mnemonic. -/
@[simp] theorem ofName_name (m : Mnemonic) : Mnemonic.ofName m.name = some m := by cases m <;> rfl

/-- A string read as a mnemonic is its name. -/
theorem name_of_ofName {name : String} {m : Mnemonic} (h : Mnemonic.ofName name = some m) :
    m.name = name := by
  simpa using List.find?_some h

/-- A string that is none of the 56 names is read as no mnemonic. -/
theorem ofName_eq_none {name : String} : Mnemonic.ofName name = none ↔ ∀ m : Mnemonic, m.name ≠ name := by
  refine ⟨fun h m hm => ?_, fun h => ?_⟩
  · rw [← hm, ofName_name] at h
    cases h
  · cases hm : Mnemonic.ofName name with
    | none => rfl
    | some m => exact absurd (name_of_ofName hm) (h m)

/-- The multiplex on an entry whose mnemonic is one of the 56. -/
theorem executeEntry_of_name {e : OpcodeEntry} {m : Mnemonic} (h : e.mnemonic = m.name) :
    executeEntry e s = handle m e s := by
  simp [executeEntry, h]

/-- The handlers refuse only a JMP and a BRK entry at a byte that is not theirs. -/
theorem handle_refused {m : Mnemonic} {e : OpcodeEntry} {r : Refusal} (h : handle m e s = .refused r) :
    r = .noHandler e.code ∧
      ((m = .jmp ∧ e.code ≠ 0x4C ∧ e.code ≠ 0x6C) ∨ (m = .brk ∧ e.code ≠ 0x00)) := by
  have hr : ∀ x : Except Fault State, outcome x ≠ .refused r := fun x => by cases x <;> simp [outcome]
  cases m <;> simp only [handle] at h
  case jmp =>
    split at h
    · exact absurd h (hr _)
    · split at h
      · exact absurd h (hr _)
      · cases h
        exact ⟨rfl, .inl ⟨rfl, by assumption, by assumption⟩⟩
  case brk =>
    split at h
    · exact absurd h (hr _)
    · cases h
      exact ⟨rfl, .inr ⟨rfl, by assumption⟩⟩
  all_goals first
    | exact absurd h (hr _)
    | (split at h <;> exact absurd h (hr _))

/-- The table without an edit at a byte is the decoder's. -/
theorem tableCell_of_lookup {edits : List (Byte × Option OpcodeEntry)} {b : Byte} {i : Instr}
    (hl : edits.lookup b = none) (hd : decodeOpcode b = some i) : tableCell edits b = .row i := by
  simp [tableCell, hl, hd]

/-! The end of a step. -/

/-- The length skip writes PC and nothing else. -/
theorem lengthSkip_setPc (e : OpcodeEntry) (before after : State) :
    ∃ pc, lengthSkip e before after = after.setPc pc := by
  unfold lengthSkip
  split
  · exact ⟨_, rfl⟩
  · exact ⟨after.pc, rfl⟩

/-- The observer changes the queue and the work RAM, and keeps the canonical form. -/
theorem observe_frame (h : observe s = .ok t) :
    (∃ q m, t = (s.setObserver q).setRam m) ∧ (MemoryCanonical s → MemoryCanonical t) := by
  unfold observe at h
  split at h
  · cases h
    exact ⟨⟨s.observer, s.ram, rfl⟩, id⟩
  · obtain ⟨⟨m, rfl⟩, hc⟩ := busWrites_frame h
    exact ⟨⟨_, m, rfl⟩, fun hs => hc hs⟩

/-- Everything the end of a step that completes can do after `Execute` gave `u`: nothing after the halt;
else a new PC, a new queue and new work RAM. -/
theorem finishStep_cases {e : OpcodeEntry} {o : Host.Outcome State Fault Refusal}
    (h : finishStep e s o = .next t) :
    ∃ u, o = .next u ∧
      ((u.rs = .halted ∧ t = u) ∨
        (u.rs ≠ .halted ∧ (∃ pc q m, t = ((u.setPc pc).setObserver q).setRam m) ∧
          (MemoryCanonical u → MemoryCanonical t))) := by
  cases o with
  | next u =>
    refine ⟨u, rfl, ?_⟩
    simp only [finishStep] at h
    split at h
    · cases h
      exact .inl ⟨by assumption, rfl⟩
    · obtain ⟨pc, hpc⟩ := lengthSkip_setPc e s u
      rw [outcome_eq_next, hpc] at h
      obtain ⟨⟨q, m, rfl⟩, hc⟩ := observe_frame h
      exact .inr ⟨by assumption, ⟨pc, q, m, rfl⟩, fun hu => hc hu⟩
  | fault f => cases h
  | refused r => cases h

/-! Reset. -/

/-- From Running and Halted `reset()` answers a state over the same RAM, parameters and observer. -/
theorem doReset_ok (h : s.rs = .running ∨ s.rs = .halted) :
    ∃ t, s.doReset = .ok t ∧ t.pc = resetVector s.params.prgSize s.params.prg ∧ t.rs = .running ∧
      t.ram = s.ram ∧ t.params = s.params ∧ t.observer = s.observer := by
  rcases h with h | h <;> rw [State.doReset, h] <;> exact ⟨_, rfl, rfl, rfl, rfl, rfl, rfl⟩

/-- In Faulted it is refused (log 19). -/
theorem doReset_faulted {f : Fault} (h : s.rs = .faulted f) :
    s.doReset = .error (.noResetFromFaulted f) := by
  simp only [State.doReset, h]

/-! The bytes of a program. -/

@[simp] theorem placeByte_rs (s : State) (addr : Word) (v : Byte) : (s.placeByte addr v).rs = s.rs := by
  unfold State.placeByte
  split <;> rfl

/-- Placing bytes keeps the run state. -/
@[simp] theorem placeBytes_rs (s : State) (addr : Word) (vs : List Byte) :
    (s.placeBytes addr vs).rs = s.rs := by
  induction vs generalizing s addr with
  | nil => rfl
  | cons v vs ih => simp [State.placeBytes, ih]


/-- Placing a byte keeps the canonical form and the image's size. -/
theorem placeByte_canonical (hs : MemoryCanonical s) (addr : Word) (v : Byte) :
    MemoryCanonical (s.placeByte addr v) ∧
      (s.placeByte addr v).params.prgSize = s.params.prgSize ∧
      (s.placeByte addr v).params.loadAddr = s.params.loadAddr := by
  unfold State.placeByte
  split
  · exact ⟨⟨Memory.wf_set hs.1 (ramIndex_lt addr) v, hs.2⟩, rfl, rfl⟩
  · exact ⟨⟨hs.1, Memory.wf_set hs.2 (prgIndex_lt _ addr) v⟩, rfl, rfl⟩
  · exact ⟨hs, rfl, rfl⟩
  · exact ⟨hs, rfl, rfl⟩

/-- Placing bytes keeps the canonical form and the image's size. -/
theorem placeBytes_canonical (vs : List Byte) (hs : MemoryCanonical s) (addr : Word) :
    MemoryCanonical (s.placeBytes addr vs) ∧
      (s.placeBytes addr vs).params.prgSize = s.params.prgSize ∧
      (s.placeBytes addr vs).params.loadAddr = s.params.loadAddr := by
  induction vs generalizing s addr with
  | nil => exact ⟨hs, rfl, rfl⟩
  | cons v vs ih =>
    obtain ⟨h1, h2, h3⟩ := placeByte_canonical hs addr v
    obtain ⟨h4, h5, h6⟩ := ih h1 (addr + 1)
    exact ⟨h4, h5.trans h2, h6.trans h3⟩

/-- The contents of a Faulted state keep the canonical form (60_exceptions.md R310). -/
theorem enterFaulted_canonical (hs : MemoryCanonical s) (f : Fault) :
    MemoryCanonical (s.enterFaulted f) := by
  cases f with
  | unrecognizedOpcode b pc => exact hs
  | _ => exact ⟨Memory.wfFrom_tabulate _ _ _ _ (by decide), hs.2⟩

end Sys2Proof.Machine
end

