-- ==== Sys2Proof/Laws/PerInstr.lean ====
section
/-! SUPPORT. What holds of every row of the opcode table, one lemma per constructor. -/

namespace Sys2Proof.Laws.OpcodeRow

/-- The row's code decodes to the row, and its entry is well formed (30_encoding.md R80, R81, R84). -/
def Statement (i : Instr) : Prop :=
  decodeOpcode i.entry.code = some i ∧ i.entry.wf i.entry.code = true

theorem ldaIndX : Statement .ldaIndX := ⟨rfl, rfl⟩
theorem ldaZp : Statement .ldaZp := ⟨rfl, rfl⟩
theorem ldaImm : Statement .ldaImm := ⟨rfl, rfl⟩
theorem ldaAbs : Statement .ldaAbs := ⟨rfl, rfl⟩
theorem ldaIndY : Statement .ldaIndY := ⟨rfl, rfl⟩
theorem ldaZpX : Statement .ldaZpX := ⟨rfl, rfl⟩
theorem ldaAbsY : Statement .ldaAbsY := ⟨rfl, rfl⟩
theorem ldaAbsX : Statement .ldaAbsX := ⟨rfl, rfl⟩
theorem ldxImm : Statement .ldxImm := ⟨rfl, rfl⟩
theorem ldxZp : Statement .ldxZp := ⟨rfl, rfl⟩
theorem ldxAbs : Statement .ldxAbs := ⟨rfl, rfl⟩
theorem ldxZpY : Statement .ldxZpY := ⟨rfl, rfl⟩
theorem ldxAbsY : Statement .ldxAbsY := ⟨rfl, rfl⟩
theorem ldyImm : Statement .ldyImm := ⟨rfl, rfl⟩
theorem ldyZp : Statement .ldyZp := ⟨rfl, rfl⟩
theorem ldyAbs : Statement .ldyAbs := ⟨rfl, rfl⟩
theorem ldyZpX : Statement .ldyZpX := ⟨rfl, rfl⟩
theorem ldyAbsX : Statement .ldyAbsX := ⟨rfl, rfl⟩
theorem staIndX : Statement .staIndX := ⟨rfl, rfl⟩
theorem staZp : Statement .staZp := ⟨rfl, rfl⟩
theorem staAbs : Statement .staAbs := ⟨rfl, rfl⟩
theorem staIndY : Statement .staIndY := ⟨rfl, rfl⟩
theorem staZpX : Statement .staZpX := ⟨rfl, rfl⟩
theorem staAbsY : Statement .staAbsY := ⟨rfl, rfl⟩
theorem staAbsX : Statement .staAbsX := ⟨rfl, rfl⟩
theorem stxZp : Statement .stxZp := ⟨rfl, rfl⟩
theorem stxAbs : Statement .stxAbs := ⟨rfl, rfl⟩
theorem stxZpY : Statement .stxZpY := ⟨rfl, rfl⟩
theorem styZp : Statement .styZp := ⟨rfl, rfl⟩
theorem styAbs : Statement .styAbs := ⟨rfl, rfl⟩
theorem styZpX : Statement .styZpX := ⟨rfl, rfl⟩
theorem tax : Statement .tax := ⟨rfl, rfl⟩
theorem tay : Statement .tay := ⟨rfl, rfl⟩
theorem txa : Statement .txa := ⟨rfl, rfl⟩
theorem tya : Statement .tya := ⟨rfl, rfl⟩
theorem tsx : Statement .tsx := ⟨rfl, rfl⟩
theorem txs : Statement .txs := ⟨rfl, rfl⟩
theorem inx : Statement .inx := ⟨rfl, rfl⟩
theorem iny : Statement .iny := ⟨rfl, rfl⟩
theorem dex : Statement .dex := ⟨rfl, rfl⟩
theorem dey : Statement .dey := ⟨rfl, rfl⟩
theorem incZp : Statement .incZp := ⟨rfl, rfl⟩
theorem incAbs : Statement .incAbs := ⟨rfl, rfl⟩
theorem incZpX : Statement .incZpX := ⟨rfl, rfl⟩
theorem incAbsX : Statement .incAbsX := ⟨rfl, rfl⟩
theorem decZp : Statement .decZp := ⟨rfl, rfl⟩
theorem decAbs : Statement .decAbs := ⟨rfl, rfl⟩
theorem decZpX : Statement .decZpX := ⟨rfl, rfl⟩
theorem decAbsX : Statement .decAbsX := ⟨rfl, rfl⟩
theorem aslZp : Statement .aslZp := ⟨rfl, rfl⟩
theorem aslAcc : Statement .aslAcc := ⟨rfl, rfl⟩
theorem aslAbs : Statement .aslAbs := ⟨rfl, rfl⟩
theorem aslZpX : Statement .aslZpX := ⟨rfl, rfl⟩
theorem aslAbsX : Statement .aslAbsX := ⟨rfl, rfl⟩
theorem lsrZp : Statement .lsrZp := ⟨rfl, rfl⟩
theorem lsrAcc : Statement .lsrAcc := ⟨rfl, rfl⟩
theorem lsrAbs : Statement .lsrAbs := ⟨rfl, rfl⟩
theorem lsrZpX : Statement .lsrZpX := ⟨rfl, rfl⟩
theorem lsrAbsX : Statement .lsrAbsX := ⟨rfl, rfl⟩
theorem rolZp : Statement .rolZp := ⟨rfl, rfl⟩
theorem rolAcc : Statement .rolAcc := ⟨rfl, rfl⟩
theorem rolAbs : Statement .rolAbs := ⟨rfl, rfl⟩
theorem rolZpX : Statement .rolZpX := ⟨rfl, rfl⟩
theorem rolAbsX : Statement .rolAbsX := ⟨rfl, rfl⟩
theorem rorZp : Statement .rorZp := ⟨rfl, rfl⟩
theorem rorAcc : Statement .rorAcc := ⟨rfl, rfl⟩
theorem rorAbs : Statement .rorAbs := ⟨rfl, rfl⟩
theorem rorZpX : Statement .rorZpX := ⟨rfl, rfl⟩
theorem rorAbsX : Statement .rorAbsX := ⟨rfl, rfl⟩
theorem andIndX : Statement .andIndX := ⟨rfl, rfl⟩
theorem andZp : Statement .andZp := ⟨rfl, rfl⟩
theorem andImm : Statement .andImm := ⟨rfl, rfl⟩
theorem andAbs : Statement .andAbs := ⟨rfl, rfl⟩
theorem andIndY : Statement .andIndY := ⟨rfl, rfl⟩
theorem andZpX : Statement .andZpX := ⟨rfl, rfl⟩
theorem andAbsY : Statement .andAbsY := ⟨rfl, rfl⟩
theorem andAbsX : Statement .andAbsX := ⟨rfl, rfl⟩
theorem eorIndX : Statement .eorIndX := ⟨rfl, rfl⟩
theorem eorZp : Statement .eorZp := ⟨rfl, rfl⟩
theorem eorImm : Statement .eorImm := ⟨rfl, rfl⟩
theorem eorAbs : Statement .eorAbs := ⟨rfl, rfl⟩
theorem eorIndY : Statement .eorIndY := ⟨rfl, rfl⟩
theorem eorZpX : Statement .eorZpX := ⟨rfl, rfl⟩
theorem eorAbsY : Statement .eorAbsY := ⟨rfl, rfl⟩
theorem eorAbsX : Statement .eorAbsX := ⟨rfl, rfl⟩
theorem oraIndX : Statement .oraIndX := ⟨rfl, rfl⟩
theorem oraZp : Statement .oraZp := ⟨rfl, rfl⟩
theorem oraImm : Statement .oraImm := ⟨rfl, rfl⟩
theorem oraAbs : Statement .oraAbs := ⟨rfl, rfl⟩
theorem oraIndY : Statement .oraIndY := ⟨rfl, rfl⟩
theorem oraZpX : Statement .oraZpX := ⟨rfl, rfl⟩
theorem oraAbsY : Statement .oraAbsY := ⟨rfl, rfl⟩
theorem oraAbsX : Statement .oraAbsX := ⟨rfl, rfl⟩
theorem adcIndX : Statement .adcIndX := ⟨rfl, rfl⟩
theorem adcZp : Statement .adcZp := ⟨rfl, rfl⟩
theorem adcImm : Statement .adcImm := ⟨rfl, rfl⟩
theorem adcAbs : Statement .adcAbs := ⟨rfl, rfl⟩
theorem adcIndY : Statement .adcIndY := ⟨rfl, rfl⟩
theorem adcZpX : Statement .adcZpX := ⟨rfl, rfl⟩
theorem adcAbsY : Statement .adcAbsY := ⟨rfl, rfl⟩
theorem adcAbsX : Statement .adcAbsX := ⟨rfl, rfl⟩
theorem sbcIndX : Statement .sbcIndX := ⟨rfl, rfl⟩
theorem sbcZp : Statement .sbcZp := ⟨rfl, rfl⟩
theorem sbcImm : Statement .sbcImm := ⟨rfl, rfl⟩
theorem sbcAbs : Statement .sbcAbs := ⟨rfl, rfl⟩
theorem sbcIndY : Statement .sbcIndY := ⟨rfl, rfl⟩
theorem sbcZpX : Statement .sbcZpX := ⟨rfl, rfl⟩
theorem sbcAbsY : Statement .sbcAbsY := ⟨rfl, rfl⟩
theorem sbcAbsX : Statement .sbcAbsX := ⟨rfl, rfl⟩
theorem cmpIndX : Statement .cmpIndX := ⟨rfl, rfl⟩
theorem cmpZp : Statement .cmpZp := ⟨rfl, rfl⟩
theorem cmpImm : Statement .cmpImm := ⟨rfl, rfl⟩
theorem cmpAbs : Statement .cmpAbs := ⟨rfl, rfl⟩
theorem cmpIndY : Statement .cmpIndY := ⟨rfl, rfl⟩
theorem cmpZpX : Statement .cmpZpX := ⟨rfl, rfl⟩
theorem cmpAbsY : Statement .cmpAbsY := ⟨rfl, rfl⟩
theorem cmpAbsX : Statement .cmpAbsX := ⟨rfl, rfl⟩
theorem cpxImm : Statement .cpxImm := ⟨rfl, rfl⟩
theorem cpxZp : Statement .cpxZp := ⟨rfl, rfl⟩
theorem cpxAbs : Statement .cpxAbs := ⟨rfl, rfl⟩
theorem cpyImm : Statement .cpyImm := ⟨rfl, rfl⟩
theorem cpyZp : Statement .cpyZp := ⟨rfl, rfl⟩
theorem cpyAbs : Statement .cpyAbs := ⟨rfl, rfl⟩
theorem bitZp : Statement .bitZp := ⟨rfl, rfl⟩
theorem bitAbs : Statement .bitAbs := ⟨rfl, rfl⟩
theorem bcc : Statement .bcc := ⟨rfl, rfl⟩
theorem bcs : Statement .bcs := ⟨rfl, rfl⟩
theorem beq : Statement .beq := ⟨rfl, rfl⟩
theorem bne : Statement .bne := ⟨rfl, rfl⟩
theorem bpl : Statement .bpl := ⟨rfl, rfl⟩
theorem bmi : Statement .bmi := ⟨rfl, rfl⟩
theorem bvc : Statement .bvc := ⟨rfl, rfl⟩
theorem bvs : Statement .bvs := ⟨rfl, rfl⟩
theorem jmpAbs : Statement .jmpAbs := ⟨rfl, rfl⟩
theorem jmpInd : Statement .jmpInd := ⟨rfl, rfl⟩
theorem jsr : Statement .jsr := ⟨rfl, rfl⟩
theorem rts : Statement .rts := ⟨rfl, rfl⟩
theorem pha : Statement .pha := ⟨rfl, rfl⟩
theorem pla : Statement .pla := ⟨rfl, rfl⟩
theorem php : Statement .php := ⟨rfl, rfl⟩
theorem plp : Statement .plp := ⟨rfl, rfl⟩
theorem clc : Statement .clc := ⟨rfl, rfl⟩
theorem sec : Statement .sec := ⟨rfl, rfl⟩
theorem cli : Statement .cli := ⟨rfl, rfl⟩
theorem sei : Statement .sei := ⟨rfl, rfl⟩
theorem cld : Statement .cld := ⟨rfl, rfl⟩
theorem sed : Statement .sed := ⟨rfl, rfl⟩
theorem clv : Statement .clv := ⟨rfl, rfl⟩
theorem rti : Statement .rti := ⟨rfl, rfl⟩
theorem nop : Statement .nop := ⟨rfl, rfl⟩
theorem brk : Statement .brk := ⟨rfl, rfl⟩

end Sys2Proof.Laws.OpcodeRow
end

