-- ==== Sys2Proof/Tests/Slice0.lean ====
section
/-! SUPPORT. The model's own tests. Expected results are those of spec/95_test_vectors.md and of the
examples in the rules; a vector's name stands in its theorem's name. Each vector is run for one step,
its final BRK left off. -/

namespace Sys2Proof.Tests

open Sys2Proof.Machine

/-! Helpers. -/

/-- The base state of 95_test_vectors.md section 0, with an instruction's bytes at 0x0600. -/
def at0600 (bytes : List Byte) : State :=
  { State.reset with pc := 0x0600, ram := Memory.ofBytes 0x600 bytes }

/-- A state with some RAM bytes set. -/
def poke (s : State) (cells : List (Nat × Byte)) : State :=
  { s with ram := cells.foldl (fun m c => Memory.set m c.1 c.2) s.ram }

/-- A state with some PRG-ROM bytes set. -/
def pokePrg (s : State) (size : PrgSize) (cells : List (Nat × Byte)) : State :=
  { s with params := { s.params with
      prgSize := size
      prg := cells.foldl (fun m c => Memory.set m c.1 c.2) s.params.prg } }

/-- The registers of a next state: A, X, Y, SP, P, PC. -/
def regs : Host.Outcome State Fault Refusal → Option (Byte × Byte × Byte × Byte × Byte × Word)
  | .next t => some (t.a, t.x, t.y, t.sp, t.p, t.pc)
  | _ => none

/-- The fault of an outcome. -/
def faultOf : Host.Outcome State Fault Refusal → Option Fault
  | .fault f => some f
  | _ => none

/-- The refusal of an outcome. -/
def refusalOf : Host.Outcome State Fault Refusal → Option Refusal
  | .refused r => some r
  | _ => none

/-- The run state of a next state. -/
def runStateOf : Host.Outcome State Fault Refusal → Option RunState
  | .next t => some t.rs
  | _ => none

/-- The bytes that bus reads of a next state give; none where a read raises. -/
def bytesAt (o : Host.Outcome State Fault Refusal) (addrs : List Word) : List Byte :=
  match o with
  | .next t => addrs.filterMap fun a => (t.busRead a).toOption
  | _ => []

/-- The row and operand the decoder reads from bytes that are one whole instruction. -/
def decoded (bytes : List Byte) : Option (Instr × Operand) :=
  match decode bytes with
  | .ok (a, []) => some (a.instr, a.operand)
  | _ => none

/-! Well-formedness: each check refuses an ill-formed term. -/

theorem test_wf_missing_byte : (AsmInstr.mk .ldaImm .none).wf = false := by decide
theorem test_wf_word_for_byte : (AsmInstr.mk .ldaZp (.word 0x0200)).wf = false := by decide
theorem test_wf_byte_for_word : (AsmInstr.mk .ldaAbs (.byte 0x02)).wf = false := by decide
theorem test_wf_operand_of_implied : (AsmInstr.mk .clc (.byte 0x02)).wf = false := by decide
theorem test_wf_ok : (AsmInstr.mk .jsr (.word 0x0610)).wf = true := by decide
theorem test_wf_entry_code :
    OpcodeEntry.wf 0x03 { code := 0x04, mnemonic := "LDA", mode := .immediate, length := 2, cycles := 2 } =
      false := by decide
theorem test_wf_entry_length :
    OpcodeEntry.wf 0x03 { code := 0x03, mnemonic := "LDA", mode := .immediate, length := 4, cycles := 2 } =
      false := by decide

/-! Decoding: every row's bytes, written from the table's bits. -/

theorem test_decode_load_store_1 :
    [[0b10100001, 0x34],
      [0b10100101, 0x34],
      [0b10101001, 0x34],
      [0b10101101, 0x34, 0x12],
      [0b10110001, 0x34],
      [0b10110101, 0x34],
      [0b10111001, 0x34, 0x12],
      [0b10111101, 0x34, 0x12],
      [0b10100010, 0x34],
      [0b10100110, 0x34],
      [0b10101110, 0x34, 0x12],
      [0b10110110, 0x34],
      [0b10111110, 0x34, 0x12],
      [0b10100000, 0x34],
      [0b10100100, 0x34],
      [0b10101100, 0x34, 0x12]].map decoded =
    [some (.ldaIndX, .byte 0x34),
      some (.ldaZp, .byte 0x34),
      some (.ldaImm, .byte 0x34),
      some (.ldaAbs, .word 0x1234),
      some (.ldaIndY, .byte 0x34),
      some (.ldaZpX, .byte 0x34),
      some (.ldaAbsY, .word 0x1234),
      some (.ldaAbsX, .word 0x1234),
      some (.ldxImm, .byte 0x34),
      some (.ldxZp, .byte 0x34),
      some (.ldxAbs, .word 0x1234),
      some (.ldxZpY, .byte 0x34),
      some (.ldxAbsY, .word 0x1234),
      some (.ldyImm, .byte 0x34),
      some (.ldyZp, .byte 0x34),
      some (.ldyAbs, .word 0x1234)] := by decide

theorem test_decode_load_store_2 :
    [[0b10110100, 0x34],
      [0b10111100, 0x34, 0x12],
      [0b10000001, 0x34],
      [0b10000101, 0x34],
      [0b10001101, 0x34, 0x12],
      [0b10010001, 0x34],
      [0b10010101, 0x34],
      [0b10011001, 0x34, 0x12],
      [0b10011101, 0x34, 0x12],
      [0b10000110, 0x34],
      [0b10001110, 0x34, 0x12],
      [0b10010110, 0x34],
      [0b10000100, 0x34],
      [0b10001100, 0x34, 0x12],
      [0b10010100, 0x34]].map decoded =
    [some (.ldyZpX, .byte 0x34),
      some (.ldyAbsX, .word 0x1234),
      some (.staIndX, .byte 0x34),
      some (.staZp, .byte 0x34),
      some (.staAbs, .word 0x1234),
      some (.staIndY, .byte 0x34),
      some (.staZpX, .byte 0x34),
      some (.staAbsY, .word 0x1234),
      some (.staAbsX, .word 0x1234),
      some (.stxZp, .byte 0x34),
      some (.stxAbs, .word 0x1234),
      some (.stxZpY, .byte 0x34),
      some (.styZp, .byte 0x34),
      some (.styAbs, .word 0x1234),
      some (.styZpX, .byte 0x34)] := by decide

theorem test_decode_transfer_1 :
    [[0b10101010],
      [0b10101000],
      [0b10001010],
      [0b10011000],
      [0b10111010],
      [0b10011010]].map decoded =
    [some (.tax, .none),
      some (.tay, .none),
      some (.txa, .none),
      some (.tya, .none),
      some (.tsx, .none),
      some (.txs, .none)] := by decide

theorem test_decode_inc_dec_1 :
    [[0b11101000],
      [0b11001000],
      [0b11001010],
      [0b10001000],
      [0b11100110, 0x34],
      [0b11101110, 0x34, 0x12],
      [0b11110110, 0x34],
      [0b11111110, 0x34, 0x12],
      [0b11000110, 0x34],
      [0b11001110, 0x34, 0x12],
      [0b11010110, 0x34],
      [0b11011110, 0x34, 0x12]].map decoded =
    [some (.inx, .none),
      some (.iny, .none),
      some (.dex, .none),
      some (.dey, .none),
      some (.incZp, .byte 0x34),
      some (.incAbs, .word 0x1234),
      some (.incZpX, .byte 0x34),
      some (.incAbsX, .word 0x1234),
      some (.decZp, .byte 0x34),
      some (.decAbs, .word 0x1234),
      some (.decZpX, .byte 0x34),
      some (.decAbsX, .word 0x1234)] := by decide

theorem test_decode_shift_rotate_1 :
    [[0b00000110, 0x34],
      [0b00001010],
      [0b00001110, 0x34, 0x12],
      [0b00010110, 0x34],
      [0b00011110, 0x34, 0x12],
      [0b01000110, 0x34],
      [0b01001010],
      [0b01001110, 0x34, 0x12],
      [0b01010110, 0x34],
      [0b01011110, 0x34, 0x12],
      [0b00100110, 0x34],
      [0b00101010],
      [0b00101110, 0x34, 0x12],
      [0b00110110, 0x34],
      [0b00111110, 0x34, 0x12],
      [0b01100110, 0x34]].map decoded =
    [some (.aslZp, .byte 0x34),
      some (.aslAcc, .none),
      some (.aslAbs, .word 0x1234),
      some (.aslZpX, .byte 0x34),
      some (.aslAbsX, .word 0x1234),
      some (.lsrZp, .byte 0x34),
      some (.lsrAcc, .none),
      some (.lsrAbs, .word 0x1234),
      some (.lsrZpX, .byte 0x34),
      some (.lsrAbsX, .word 0x1234),
      some (.rolZp, .byte 0x34),
      some (.rolAcc, .none),
      some (.rolAbs, .word 0x1234),
      some (.rolZpX, .byte 0x34),
      some (.rolAbsX, .word 0x1234),
      some (.rorZp, .byte 0x34)] := by decide

theorem test_decode_shift_rotate_2 :
    [[0b01101010],
      [0b01101110, 0x34, 0x12],
      [0b01110110, 0x34],
      [0b01111110, 0x34, 0x12]].map decoded =
    [some (.rorAcc, .none),
      some (.rorAbs, .word 0x1234),
      some (.rorZpX, .byte 0x34),
      some (.rorAbsX, .word 0x1234)] := by decide

theorem test_decode_logic_1 :
    [[0b00100001, 0x34],
      [0b00100101, 0x34],
      [0b00101001, 0x34],
      [0b00101101, 0x34, 0x12],
      [0b00110001, 0x34],
      [0b00110101, 0x34],
      [0b00111001, 0x34, 0x12],
      [0b00111101, 0x34, 0x12],
      [0b01000001, 0x34],
      [0b01000101, 0x34],
      [0b01001001, 0x34],
      [0b01001101, 0x34, 0x12],
      [0b01010001, 0x34],
      [0b01010101, 0x34],
      [0b01011001, 0x34, 0x12],
      [0b01011101, 0x34, 0x12]].map decoded =
    [some (.andIndX, .byte 0x34),
      some (.andZp, .byte 0x34),
      some (.andImm, .byte 0x34),
      some (.andAbs, .word 0x1234),
      some (.andIndY, .byte 0x34),
      some (.andZpX, .byte 0x34),
      some (.andAbsY, .word 0x1234),
      some (.andAbsX, .word 0x1234),
      some (.eorIndX, .byte 0x34),
      some (.eorZp, .byte 0x34),
      some (.eorImm, .byte 0x34),
      some (.eorAbs, .word 0x1234),
      some (.eorIndY, .byte 0x34),
      some (.eorZpX, .byte 0x34),
      some (.eorAbsY, .word 0x1234),
      some (.eorAbsX, .word 0x1234)] := by decide

theorem test_decode_logic_2 :
    [[0b00000001, 0x34],
      [0b00000101, 0x34],
      [0b00001001, 0x34],
      [0b00001101, 0x34, 0x12],
      [0b00010001, 0x34],
      [0b00010101, 0x34],
      [0b00011001, 0x34, 0x12],
      [0b00011101, 0x34, 0x12]].map decoded =
    [some (.oraIndX, .byte 0x34),
      some (.oraZp, .byte 0x34),
      some (.oraImm, .byte 0x34),
      some (.oraAbs, .word 0x1234),
      some (.oraIndY, .byte 0x34),
      some (.oraZpX, .byte 0x34),
      some (.oraAbsY, .word 0x1234),
      some (.oraAbsX, .word 0x1234)] := by decide

theorem test_decode_arith_compare_1 :
    [[0b01100001, 0x34],
      [0b01100101, 0x34],
      [0b01101001, 0x34],
      [0b01101101, 0x34, 0x12],
      [0b01110001, 0x34],
      [0b01110101, 0x34],
      [0b01111001, 0x34, 0x12],
      [0b01111101, 0x34, 0x12],
      [0b11100001, 0x34],
      [0b11100101, 0x34],
      [0b11101001, 0x34],
      [0b11101101, 0x34, 0x12],
      [0b11110001, 0x34],
      [0b11110101, 0x34],
      [0b11111001, 0x34, 0x12],
      [0b11111101, 0x34, 0x12]].map decoded =
    [some (.adcIndX, .byte 0x34),
      some (.adcZp, .byte 0x34),
      some (.adcImm, .byte 0x34),
      some (.adcAbs, .word 0x1234),
      some (.adcIndY, .byte 0x34),
      some (.adcZpX, .byte 0x34),
      some (.adcAbsY, .word 0x1234),
      some (.adcAbsX, .word 0x1234),
      some (.sbcIndX, .byte 0x34),
      some (.sbcZp, .byte 0x34),
      some (.sbcImm, .byte 0x34),
      some (.sbcAbs, .word 0x1234),
      some (.sbcIndY, .byte 0x34),
      some (.sbcZpX, .byte 0x34),
      some (.sbcAbsY, .word 0x1234),
      some (.sbcAbsX, .word 0x1234)] := by decide

theorem test_decode_arith_compare_2 :
    [[0b11000001, 0x34],
      [0b11000101, 0x34],
      [0b11001001, 0x34],
      [0b11001101, 0x34, 0x12],
      [0b11010001, 0x34],
      [0b11010101, 0x34],
      [0b11011001, 0x34, 0x12],
      [0b11011101, 0x34, 0x12],
      [0b11100000, 0x34],
      [0b11100100, 0x34],
      [0b11101100, 0x34, 0x12],
      [0b11000000, 0x34],
      [0b11000100, 0x34],
      [0b11001100, 0x34, 0x12],
      [0b00100100, 0x34],
      [0b00101100, 0x34, 0x12]].map decoded =
    [some (.cmpIndX, .byte 0x34),
      some (.cmpZp, .byte 0x34),
      some (.cmpImm, .byte 0x34),
      some (.cmpAbs, .word 0x1234),
      some (.cmpIndY, .byte 0x34),
      some (.cmpZpX, .byte 0x34),
      some (.cmpAbsY, .word 0x1234),
      some (.cmpAbsX, .word 0x1234),
      some (.cpxImm, .byte 0x34),
      some (.cpxZp, .byte 0x34),
      some (.cpxAbs, .word 0x1234),
      some (.cpyImm, .byte 0x34),
      some (.cpyZp, .byte 0x34),
      some (.cpyAbs, .word 0x1234),
      some (.bitZp, .byte 0x34),
      some (.bitAbs, .word 0x1234)] := by decide

theorem test_decode_control_1 :
    [[0b10010000, 0x34],
      [0b10110000, 0x34],
      [0b11110000, 0x34],
      [0b11010000, 0x34],
      [0b00010000, 0x34],
      [0b00110000, 0x34],
      [0b01010000, 0x34],
      [0b01110000, 0x34],
      [0b01001100, 0x34, 0x12],
      [0b01101100, 0x34, 0x12],
      [0b00100000, 0x34, 0x12],
      [0b01100000]].map decoded =
    [some (.bcc, .byte 0x34),
      some (.bcs, .byte 0x34),
      some (.beq, .byte 0x34),
      some (.bne, .byte 0x34),
      some (.bpl, .byte 0x34),
      some (.bmi, .byte 0x34),
      some (.bvc, .byte 0x34),
      some (.bvs, .byte 0x34),
      some (.jmpAbs, .word 0x1234),
      some (.jmpInd, .word 0x1234),
      some (.jsr, .word 0x1234),
      some (.rts, .none)] := by decide

theorem test_decode_stack_flag_1 :
    [[0b01001000],
      [0b01101000],
      [0b00001000],
      [0b00101000],
      [0b00011000],
      [0b00111000],
      [0b01011000],
      [0b01111000],
      [0b11011000],
      [0b11111000],
      [0b10111000],
      [0b01000000],
      [0b11101010],
      [0b00000000]].map decoded =
    [some (.pha, .none),
      some (.pla, .none),
      some (.php, .none),
      some (.plp, .none),
      some (.clc, .none),
      some (.sec, .none),
      some (.cli, .none),
      some (.sei, .none),
      some (.cld, .none),
      some (.sed, .none),
      some (.clv, .none),
      some (.rti, .none),
      some (.nop, .none),
      some (.brk, .none)] := by decide

/-! Loads and stores (95_test_vectors.md 2.1). -/

theorem test_ls1_ldaImm :
    regs (step { at0600 [0xA9, 0x00] with a := 0x55 }) = some (0x00, 0x00, 0x00, 0xFD, 0x22, 0x0602) := by decide

theorem test_ls2_ldaImm :
    regs (step (at0600 [0xA9, 0x80])) = some (0x80, 0x00, 0x00, 0xFD, 0xA0, 0x0602) := by decide

theorem test_ls4_ldaZpX :
    regs (step { poke (at0600 [0xB5, 0xF0]) [(0x0010, 0x77), (0x0110, 0x11)] with x := 0x20 }) = some (0x77, 0x20, 0x00, 0xFD, 0x20, 0x0602) := by decide

theorem test_ls5_ldaAbsX :
    regs (step { poke (at0600 [0xBD, 0xF0, 0xFF]) [(0x0010, 0x66)] with x := 0x20 }) = some (0x66, 0x20, 0x00, 0xFD, 0x20, 0x0603) := by decide

theorem test_ls7_ldaIndX :
    regs (step { poke (at0600 [0xA1, 0xFE]) [(0x00FF, 0x00), (0x0000, 0x07), (0x0700, 0x99)] with x := 0x01 }) = some (0x99, 0x01, 0x00, 0xFD, 0xA0, 0x0602) := by decide

theorem test_ls8_ldaIndY :
    regs (step { poke (at0600 [0xB1, 0xFF]) [(0x00FF, 0x34), (0x0000, 0x12), (0x0244, 0x5A)] with y := 0x10 }) = some (0x5A, 0x00, 0x10, 0xFD, 0x20, 0x0602) := by decide

theorem test_ls11_ldxZpY :
    regs (step { poke (at0600 [0xB6, 0xF0]) [(0x0010, 0x80)] with y := 0x20 }) = some (0x00, 0x80, 0x20, 0xFD, 0xA0, 0x0602) := by decide

theorem test_ls12_ldyAbsX :
    regs (step { at0600 [0xBC, 0x00, 0x03] with x := 0x01, y := 0x05 }) = some (0x00, 0x01, 0x00, 0xFD, 0x22, 0x0603) := by decide

theorem test_ls14_ldyImm :
    regs (step (at0600 [0xA0, 0xFF])) = some (0x00, 0x00, 0xFF, 0xFD, 0xA0, 0x0602) := by decide

theorem test_ls15_staAbs :
    regs (step { at0600 [0x8D, 0x00, 0x08] with a := 0x42 }) = some (0x42, 0x00, 0x00, 0xFD, 0x22, 0x0603) ∧
      bytesAt (step { at0600 [0x8D, 0x00, 0x08] with a := 0x42 }) [0x0000, 0x0800] = [0x42, 0x42] := by decide

theorem test_ls17_styZpX :
    regs (step { at0600 [0x94, 0xFF] with x := 0x02, y := 0x5C }) = some (0x00, 0x02, 0x5C, 0xFD, 0x22, 0x0602) ∧
      bytesAt (step { at0600 [0x94, 0xFF] with x := 0x02, y := 0x5C }) [0x0001] = [0x5C] := by decide

theorem test_ls18_staIndY :
    regs (step { poke (at0600 [0x91, 0x20]) [(0x0020, 0x00), (0x0021, 0x03)] with a := 0x81, y := 0x05 }) = some (0x81, 0x00, 0x05, 0xFD, 0x22, 0x0602) ∧
      bytesAt (step { poke (at0600 [0x91, 0x20]) [(0x0020, 0x00), (0x0021, 0x03)] with a := 0x81, y := 0x05 }) [0x0305] = [0x81] := by decide

theorem test_ls19_staAbs :
    faultOf (step { at0600 [0x8D, 0x00, 0x85] with a := 0x42 }) = some (.illegalWrite 0x8500 0x42) := by decide

theorem test_ls20_staAbs :
    regs (step { at0600 [0x8D, 0x00, 0x40] with a := 0x42 }) = some (0x42, 0x00, 0x00, 0xFD, 0x22, 0x0603) := by decide

theorem test_ls22_staIndX :
    regs (step { poke (at0600 [0x81, 0x10]) [(0x0014, 0x00), (0x0015, 0x02)] with a := 0x99, x := 0x04 }) = some (0x99, 0x04, 0x00, 0xFD, 0x22, 0x0602) ∧
      bytesAt (step { poke (at0600 [0x81, 0x10]) [(0x0014, 0x00), (0x0015, 0x02)] with a := 0x99, x := 0x04 }) [0x0200] = [0x99] := by decide

/-! Register transfers (2.2). -/

theorem test_tr1_tax :
    regs (step { at0600 [0xAA] with x := 0x05 }) = some (0x00, 0x00, 0x00, 0xFD, 0x22, 0x0601) := by decide

theorem test_tr2_tay :
    regs (step { at0600 [0xA8] with a := 0x80 }) = some (0x80, 0x00, 0x80, 0xFD, 0xA0, 0x0601) := by decide

theorem test_tr3_txa :
    regs (step { at0600 [0x8A] with a := 0xFF, x := 0x01 }) = some (0x01, 0x01, 0x00, 0xFD, 0x20, 0x0601) := by decide

theorem test_tr4_tya :
    regs (step { at0600 [0x98] with a := 0x07, p := 0x20 }) = some (0x00, 0x00, 0x00, 0xFD, 0x22, 0x0601) := by decide

theorem test_tr5_tsx :
    regs (step (at0600 [0xBA])) = some (0x00, 0xFD, 0x00, 0xFD, 0xA0, 0x0601) := by decide

theorem test_tr6_txs :
    regs (step { at0600 [0x9A] with x := 0x00, p := 0x20 }) = some (0x00, 0x00, 0x00, 0x00, 0x20, 0x0601) := by decide

/-! Increment and decrement (2.3). -/

theorem test_id1_inx :
    regs (step { at0600 [0xE8] with x := 0xFF }) = some (0x00, 0x00, 0x00, 0xFD, 0x22, 0x0601) := by decide

theorem test_id3_iny :
    regs (step (at0600 [0xC8])) = some (0x00, 0x00, 0x01, 0xFD, 0x20, 0x0601) := by decide

theorem test_id4_dex :
    regs (step (at0600 [0xCA])) = some (0x00, 0xFF, 0x00, 0xFD, 0xA0, 0x0601) := by decide

theorem test_id5_dey :
    regs (step { at0600 [0x88] with y := 0x01, p := 0x20 }) = some (0x00, 0x00, 0x00, 0xFD, 0x22, 0x0601) := by decide

theorem test_id6_incZp :
    regs (step (poke (at0600 [0xE6, 0x10]) [(0x0010, 0xFF)])) = some (0x00, 0x00, 0x00, 0xFD, 0x22, 0x0602) ∧
      bytesAt (step (poke (at0600 [0xE6, 0x10]) [(0x0010, 0xFF)])) [0x0010] = [0x00] := by decide

theorem test_id8_incZpX :
    regs (step { poke (at0600 [0xF6, 0xF0]) [(0x0010, 0x7F)] with x := 0x20 }) = some (0x00, 0x20, 0x00, 0xFD, 0xA0, 0x0602) ∧
      bytesAt (step { poke (at0600 [0xF6, 0xF0]) [(0x0010, 0x7F)] with x := 0x20 }) [0x0010] = [0x80] := by decide

theorem test_id9_decAbsX :
    regs (step { poke (at0600 [0xDE, 0x00, 0x02]) [(0x0210, 0x01)] with x := 0x10, p := 0x20 }) = some (0x00, 0x10, 0x00, 0xFD, 0x22, 0x0603) ∧
      bytesAt (step { poke (at0600 [0xDE, 0x00, 0x02]) [(0x0210, 0x01)] with x := 0x10, p := 0x20 }) [0x0210] = [0x00] := by decide

theorem test_id10_incAbs :
    faultOf (step (at0600 [0xEE, 0x00, 0x80])) = some (.illegalWrite 0x8000 0x01) := by decide

theorem test_id11_decAbs :
    faultOf (step (at0600 [0xCE, 0x00, 0x20])) = some (.unimplementedSubsystem 0x2000 .read) := by decide

theorem test_id12_incAbs :
    regs (step (at0600 [0xEE, 0x00, 0x40])) = some (0x00, 0x00, 0x00, 0xFD, 0x20, 0x0603) ∧
      bytesAt (step (at0600 [0xEE, 0x00, 0x40])) [0x4000] = [0x00] := by decide

/-! Shifts and rotates (2.4). -/

theorem test_sh1_aslAcc :
    regs (step { at0600 [0x0A] with a := 0x80 }) = some (0x00, 0x00, 0x00, 0xFD, 0x23, 0x0601) := by decide

theorem test_sh3_lsrAcc :
    regs (step { at0600 [0x4A] with a := 0x01 }) = some (0x00, 0x00, 0x00, 0xFD, 0x23, 0x0601) := by decide

theorem test_sh5_rolAcc :
    regs (step { at0600 [0x2A] with a := 0x80, p := 0x20 }) = some (0x00, 0x00, 0x00, 0xFD, 0x21, 0x0601) := by decide

theorem test_sh6_rolAcc :
    regs (step { at0600 [0x2A] with a := 0x80, p := 0x20, params := { Params.default with rotZ := .accOnly } }) = some (0x00, 0x00, 0x00, 0xFD, 0x23, 0x0601) := by decide

theorem test_sh8_rorAcc :
    regs (step { at0600 [0x6A] with a := 0x01, p := 0x21 }) = some (0x80, 0x00, 0x00, 0xFD, 0xA1, 0x0601) := by decide

theorem test_sh10_rorZp :
    regs (step { poke (at0600 [0x66, 0x10]) [(0x0010, 0x01)] with p := 0x20, params := { Params.default with rotZ := .accOnly } }) = some (0x00, 0x00, 0x00, 0xFD, 0x21, 0x0602) ∧
      bytesAt (step { poke (at0600 [0x66, 0x10]) [(0x0010, 0x01)] with p := 0x20, params := { Params.default with rotZ := .accOnly } }) [0x0010] = [0x00] := by decide

theorem test_sh11_rorZp :
    regs (step { poke (at0600 [0x66, 0x10]) [(0x0010, 0x01)] with p := 0x20, params := { Params.default with rotZ := .always } }) = some (0x00, 0x00, 0x00, 0xFD, 0x23, 0x0602) ∧
      bytesAt (step { poke (at0600 [0x66, 0x10]) [(0x0010, 0x01)] with p := 0x20, params := { Params.default with rotZ := .always } }) [0x0010] = [0x00] := by decide

theorem test_sh12_aslZpX :
    regs (step { poke (at0600 [0x16, 0x10]) [(0x0011, 0x40)] with x := 0x01 }) = some (0x00, 0x01, 0x00, 0xFD, 0xA0, 0x0602) ∧
      bytesAt (step { poke (at0600 [0x16, 0x10]) [(0x0011, 0x40)] with x := 0x01 }) [0x0011] = [0x80] := by decide

theorem test_sh13_lsrAbs :
    regs (step (poke (at0600 [0x4E, 0x00, 0x03]) [(0x0300, 0x02)])) = some (0x00, 0x00, 0x00, 0xFD, 0x20, 0x0603) ∧
      bytesAt (step (poke (at0600 [0x4E, 0x00, 0x03]) [(0x0300, 0x02)])) [0x0300] = [0x01] := by decide

theorem test_sh15_rolAbs :
    faultOf (step (at0600 [0x2E, 0x00, 0x80])) = some (.illegalWrite 0x8000 0x00) := by decide

/-! Logic, arithmetic, compare and bit test (2.5). -/

theorem test_la1_andImm :
    regs (step { at0600 [0x29, 0x3C] with a := 0xF0 }) = some (0x30, 0x00, 0x00, 0xFD, 0x20, 0x0602) := by decide

theorem test_la3_eorImm :
    regs (step { at0600 [0x49, 0x0F] with a := 0xFF }) = some (0xF0, 0x00, 0x00, 0xFD, 0xA0, 0x0602) := by decide

theorem test_la5_oraImm :
    regs (step { at0600 [0x09, 0x80] with a := 0x01 }) = some (0x81, 0x00, 0x00, 0xFD, 0xA0, 0x0602) := by decide

theorem test_la6_oraAbs :
    regs (step { at0600 [0x0D, 0x00, 0x40] with p := 0x20 }) = some (0x00, 0x00, 0x00, 0xFD, 0x22, 0x0603) := by decide

theorem test_ad2_adcImm :
    regs (step { at0600 [0x69, 0x01] with a := 0x7F, p := 0x20 }) = some (0x80, 0x00, 0x00, 0xFD, 0xE0, 0x0602) := by decide

theorem test_ad3_adcImm :
    regs (step { at0600 [0x69, 0x80] with a := 0x80, p := 0x20 }) = some (0x00, 0x00, 0x00, 0xFD, 0x63, 0x0602) := by decide

theorem test_ad4_adcImm :
    regs (step { at0600 [0x69, 0xFF] with a := 0xFF, p := 0x21 }) = some (0xFF, 0x00, 0x00, 0xFD, 0xA1, 0x0602) := by decide

theorem test_sb1_sbcImm :
    regs (step { at0600 [0xE9, 0x01] with a := 0x00, p := 0x21 }) = some (0xFF, 0x00, 0x00, 0xFD, 0xA0, 0x0602) := by decide

theorem test_sb2_sbcImm :
    regs (step { at0600 [0xE9, 0x01] with a := 0x80, p := 0x21 }) = some (0x7F, 0x00, 0x00, 0xFD, 0x61, 0x0602) := by decide

theorem test_cp3_cmpImm :
    regs (step { at0600 [0xC9, 0x00] with a := 0x80 }) = some (0x80, 0x00, 0x00, 0xFD, 0xA1, 0x0602) := by decide

theorem test_cp4_cpxImm :
    regs (step { at0600 [0xE0, 0x04] with x := 0x03 }) = some (0x00, 0x03, 0x00, 0xFD, 0xA0, 0x0602) := by decide

theorem test_cp5_cpyImm :
    regs (step { at0600 [0xC0, 0x01] with y := 0x10 }) = some (0x00, 0x00, 0x10, 0xFD, 0x21, 0x0602) := by decide

theorem test_cp7_cpyAbs :
    regs (step { poke (at0600 [0xCC, 0x00, 0x03]) [(0x0300, 0x02)] with y := 0x02 }) = some (0x00, 0x00, 0x02, 0xFD, 0x23, 0x0603) := by decide

theorem test_bt1_bitZp :
    regs (step { poke (at0600 [0x24, 0x10]) [(0x0010, 0xC0)] with a := 0x01 }) = some (0x01, 0x00, 0x00, 0xFD, 0xE2, 0x0602) := by decide

theorem test_bt3_bitZp :
    regs (step { poke (at0600 [0x24, 0x10]) [(0x0010, 0x40)] with a := 0x0F, p := 0x20 }) = some (0x0F, 0x00, 0x00, 0xFD, 0x62, 0x0602) := by decide

/-! Branches, jumps and subroutines (2.6). -/

theorem test_bcc_taken :
    regs (step { at0600 [0x90, 0x03] with p := 0x20 }) = some (0, 0, 0, 0xFD, 0x20, 0x0605) := by decide

theorem test_bcc_not_taken :
    regs (step { at0600 [0x90, 0x03] with p := 0x21 }) = some (0, 0, 0, 0xFD, 0x21, 0x0602) := by decide

theorem test_bcs_taken :
    regs (step { at0600 [0xB0, 0x03] with p := 0x21 }) = some (0, 0, 0, 0xFD, 0x21, 0x0605) := by decide

theorem test_bcs_not_taken :
    regs (step { at0600 [0xB0, 0x03] with p := 0x20 }) = some (0, 0, 0, 0xFD, 0x20, 0x0602) := by decide

theorem test_beq_taken :
    regs (step { at0600 [0xF0, 0x03] with p := 0x22 }) = some (0, 0, 0, 0xFD, 0x22, 0x0605) := by decide

theorem test_beq_not_taken :
    regs (step { at0600 [0xF0, 0x03] with p := 0x20 }) = some (0, 0, 0, 0xFD, 0x20, 0x0602) := by decide

theorem test_bne_taken :
    regs (step { at0600 [0xD0, 0x03] with p := 0x20 }) = some (0, 0, 0, 0xFD, 0x20, 0x0605) := by decide

theorem test_bne_not_taken :
    regs (step { at0600 [0xD0, 0x03] with p := 0x22 }) = some (0, 0, 0, 0xFD, 0x22, 0x0602) := by decide

theorem test_bpl_taken :
    regs (step { at0600 [0x10, 0x03] with p := 0x20 }) = some (0, 0, 0, 0xFD, 0x20, 0x0605) := by decide

theorem test_bpl_not_taken :
    regs (step { at0600 [0x10, 0x03] with p := 0xA0 }) = some (0, 0, 0, 0xFD, 0xA0, 0x0602) := by decide

theorem test_bmi_taken :
    regs (step { at0600 [0x30, 0x03] with p := 0xA0 }) = some (0, 0, 0, 0xFD, 0xA0, 0x0605) := by decide

theorem test_bmi_not_taken :
    regs (step { at0600 [0x30, 0x03] with p := 0x20 }) = some (0, 0, 0, 0xFD, 0x20, 0x0602) := by decide

theorem test_bvc_taken :
    regs (step { at0600 [0x50, 0x03] with p := 0x20 }) = some (0, 0, 0, 0xFD, 0x20, 0x0605) := by decide

theorem test_bvc_not_taken :
    regs (step { at0600 [0x50, 0x03] with p := 0x60 }) = some (0, 0, 0, 0xFD, 0x60, 0x0602) := by decide

theorem test_bvs_taken :
    regs (step { at0600 [0x70, 0x03] with p := 0x60 }) = some (0, 0, 0, 0xFD, 0x60, 0x0605) := by decide

theorem test_bvs_not_taken :
    regs (step { at0600 [0x70, 0x03] with p := 0x20 }) = some (0, 0, 0, 0xFD, 0x20, 0x0602) := by decide

theorem test_jm1_jmpAbs :
    regs (step (at0600 [0x4C, 0x06, 0x06])) = some (0x00, 0x00, 0x00, 0xFD, 0x22, 0x0606) := by decide

theorem test_jm2_jmpInd :
    regs (step (poke (at0600 [0x6C, 0x20, 0x01]) [(0x0120, 0x06), (0x0121, 0x06)])) = some (0x00, 0x00, 0x00, 0xFD, 0x22, 0x0606) := by decide

theorem test_jm3_jmpInd :
    regs (step (poke (at0600 [0x6C, 0xFF, 0x02]) [(0x02FF, 0x06), (0x0300, 0x06), (0x0200, 0x07)])) = some (0x00, 0x00, 0x00, 0xFD, 0x22, 0x0606) := by decide

theorem test_jm6_jmpAbs :
    regs (step (at0600 [0x4C, 0x00, 0x40])) = some (0x00, 0x00, 0x00, 0xFD, 0x22, 0x4000) := by decide

theorem test_js1_jsr :
    regs (step (at0600 [0x20, 0x04, 0x06])) = some (0x00, 0x00, 0x00, 0xFB, 0x22, 0x0604) ∧
      bytesAt (step (at0600 [0x20, 0x04, 0x06])) [0x01FC, 0x01FD] = [0x02, 0x06] := by decide

theorem test_js3_rts :
    regs (step { poke (at0600 [0x60]) [(0x0100, 0x04), (0x0101, 0x06)] with sp := 0xFF }) = some (0x00, 0x00, 0x00, 0x01, 0x22, 0x0605) := by decide

theorem test_js4_rts :
    regs (step { poke (at0600 [0x60]) [(0x01FC, 0xFF), (0x01FD, 0xFF)] with sp := 0xFB }) = some (0x00, 0x00, 0x00, 0xFD, 0x22, 0x0000) := by decide

/-! Stack, flags, RTI, NOP and BRK (2.7). -/

theorem test_st1_pha :
    regs (step { at0600 [0x48] with a := 0x42 }) = some (0x42, 0x00, 0x00, 0xFC, 0x22, 0x0601) ∧
      bytesAt (step { at0600 [0x48] with a := 0x42 }) [0x01FD] = [0x42] := by decide

theorem test_st2_pha :
    regs (step { at0600 [0x48] with a := 0x42, sp := 0x00 }) = some (0x42, 0x00, 0x00, 0xFF, 0x22, 0x0601) ∧
      bytesAt (step { at0600 [0x48] with a := 0x42, sp := 0x00 }) [0x0100] = [0x42] := by decide

theorem test_st4_pla :
    regs (step { poke (at0600 [0x68]) [(0x0100, 0x80)] with sp := 0xFF }) = some (0x80, 0x00, 0x00, 0x00, 0xA0, 0x0601) := by decide

theorem test_st5_php :
    regs (step (at0600 [0x08])) = some (0x00, 0x00, 0x00, 0xFC, 0x22, 0x0601) ∧
      bytesAt (step (at0600 [0x08])) [0x01FD] = [0x32] := by decide

theorem test_st6_php :
    regs (step { at0600 [0x08] with p := 0xEF }) = some (0x00, 0x00, 0x00, 0xFC, 0xEF, 0x0601) ∧
      bytesAt (step { at0600 [0x08] with p := 0xEF }) [0x01FD] = [0xFF] := by decide

theorem test_st7_plp :
    regs (step { poke (at0600 [0x28]) [(0x01FD, 0xFF)] with sp := 0xFC }) = some (0x00, 0x00, 0x00, 0xFD, 0xEF, 0x0601) := by decide

theorem test_st8_plp :
    regs (step { poke (at0600 [0x28]) [(0x01FD, 0x00)] with sp := 0xFC }) = some (0x00, 0x00, 0x00, 0xFD, 0x20, 0x0601) := by decide

theorem test_st9_rti :
    regs (step { poke (at0600 [0x40]) [(0x01FB, 0xC3), (0x01FC, 0x04), (0x01FD, 0x06)] with sp := 0xFA }) = some (0x00, 0x00, 0x00, 0xFD, 0xE3, 0x0604) := by decide

theorem test_fl1_clc :
    regs (step { at0600 [0x18] with p := 0x23 }) = some (0x00, 0x00, 0x00, 0xFD, 0x22, 0x0601) := by decide

theorem test_fl2_sec :
    regs (step (at0600 [0x38])) = some (0x00, 0x00, 0x00, 0xFD, 0x23, 0x0601) := by decide

theorem test_fl3_cli :
    regs (step { at0600 [0x58] with p := 0x26 }) = some (0x00, 0x00, 0x00, 0xFD, 0x22, 0x0601) := by decide

theorem test_fl4_sei :
    regs (step (at0600 [0x78])) = some (0x00, 0x00, 0x00, 0xFD, 0x26, 0x0601) := by decide

theorem test_fl5_cld :
    regs (step { at0600 [0xD8] with p := 0x2A }) = some (0x00, 0x00, 0x00, 0xFD, 0x22, 0x0601) := by decide

theorem test_fl6_sed :
    regs (step (at0600 [0xF8])) = some (0x00, 0x00, 0x00, 0xFD, 0x2A, 0x0601) := by decide

theorem test_fl7_clv :
    regs (step { at0600 [0xB8] with p := 0x62 }) = some (0x00, 0x00, 0x00, 0xFD, 0x22, 0x0601) := by decide

theorem test_np1_nop :
    regs (step (at0600 [0xEA])) = some (0x00, 0x00, 0x00, 0xFD, 0x22, 0x0601) := by decide

theorem test_hl1_brk :
    regs (step { at0600 [0x00] with p := 0xE3 }) = some (0x00, 0x00, 0x00, 0xFD, 0xE3, 0x0601) := by decide

/-! The engine, the bus and the errors (2.8), and the host. -/

theorem test_decode_rejects_unassigned :
    decode [0x02, 0x00] = .error (.unrecognizedOpcode 0x02) ∧ decode [] = .error .noBytes ∧
      decode [0xAD, 0x00] = .error (.truncated .ldaAbs) := by decide
theorem test_encode_jsr : encode ⟨.jsr, .word 0x0610⟩ = [0x20, 0x10, 0x06] := by decide
theorem test_decodeTableWord : decodeTableWord 24 0xAD = some .ldaAbs ∧ decodeTableWord 8 0x02 = none := by
  decide
theorem test_withFetchWord :
    regs (step (State.reset.withFetchWord 16 0x80A9)) = some (0x80, 0, 0, 0xFD, 0xA0, 0x0002) := by decide
theorem test_br17_value_compare :
    regs (step (at0600 [0xF0, 0xFF])) = some (0, 0, 0, 0xFD, 0x22, 0x0602) := by decide
theorem test_br18_class_based :
    regs (step { at0600 [0xF0, 0xFF] with params := { Params.default with skipRule := .classBased } }) =
      some (0, 0, 0, 0xFD, 0x22, 0x0601) := by decide
theorem test_bmi_back_128 :
    regs (step { at0600 [0x30, 0x80] with p := 0xA0 }) = some (0, 0, 0, 0xFD, 0xA0, 0x0582) := by decide
theorem test_en2_unrecognized :
    faultOf (step (at0600 [0xFF])) = some (.unrecognizedOpcode 0xFF 0x0600) ∧
      (afterStep (at0600 [0xFF])).pc = 0x0600 ∧
      (afterStep (at0600 [0xFF])).rs = .faulted (.unrecognizedOpcode 0xFF 0x0600) := by decide
theorem test_fetch_from_video :
    faultOf (step { at0600 [] with pc := 0x2008 }) = some (.unimplementedSubsystem 0x2008 .read) := by decide
theorem test_jm6_unmapped_fetch_halts :
    runStateOf (step { at0600 [] with pc := 0x4000 }) = some .halted ∧
      regs (step { at0600 [] with pc := 0x4000 }) = some (0, 0, 0, 0xFD, 0x22, 0x4001) := by decide
theorem test_en5_prg_mirror :
    regs (step (pokePrg (at0600 [0xAE, 0x10, 0xC0]) .k16 [(0x10, 0x5A)])) =
      some (0, 0x5A, 0, 0xFD, 0x20, 0x0603) := by decide
theorem test_en6_prg_direct :
    regs (step (pokePrg (at0600 [0xAD, 0x10, 0xC0]) .k32 [(0x10, 0x5A), (0x4010, 0xA5)])) =
      some (0xA5, 0, 0, 0xFD, 0xA0, 0x0603) := by decide
theorem test_en8_pc_wraps :
    regs (step { pokePrg (at0600 []) .k16 [(0x3FFF, 0xE8)] with pc := 0xFFFF }) =
      some (0, 1, 0, 0xFD, 0x20, 0x0000) := by decide
theorem test_halted_resumes :
    regs (step { at0600 [0xE8] with rs := .halted }) = some (0, 1, 0, 0xFD, 0x20, 0x0601) ∧
      runStateOf (step { at0600 [0xE8] with rs := .halted }) = some .running := by decide
theorem test_no_step_from_faulted :
    refusalOf (step { at0600 [0xE8] with rs := .faulted (.illegalWrite 0x8500 0x42) }) =
      some (.noStepFromFaulted (.illegalWrite 0x8500 0x42)) := by decide
theorem test_observer_injects :
    bytesAt (step { at0600 [0xEA] with observer := [[(0x0801, 0x77)]] }) [0x0001] = [0x77] ∧
      faultOf (step { at0600 [0xEA] with observer := [[(0x8000, 0x77)]] }) =
        some (.illegalWrite 0x8000 0x77) := by decide
theorem test_observer_not_after_halt :
    runStateOf (step { at0600 [0x00] with observer := [[(0x8000, 0x77)]] }) = some .halted := by decide
theorem test_table_edit_removes :
    faultOf (step { at0600 [0xEA] with
      params := { Params.default with tableEdits := [(0xEA, none)] } }) =
      some (.unrecognizedOpcode 0xEA 0x0600) := by decide
theorem test_table_edit_no_mode :
    faultOf (step { at0600 [0x02] with
      params := { Params.default with tableEdits :=
        [(0x02, some { code := 0x02, mnemonic := "LDA", mode := .noneAddressing, length := 1, cycles := 2 })] } }) =
      some (.unsupportedAddressingMode 0x02 .noneAddressing) := by decide
theorem test_table_edit_other_mnemonic :
    refusalOf (step { at0600 [0x02] with
      params := { Params.default with tableEdits :=
        [(0x02, some { code := 0x02, mnemonic := "LAX", mode := .immediate, length := 2, cycles := 2 })] } }) =
      some (.noHandler 0x02) := by decide
theorem test_table_edit_halts_at_00_alone :
    refusalOf (step { at0600 [0x02] with
      params := { Params.default with tableEdits :=
        [(0x02, some { code := 0x00, mnemonic := "BRK", mode := .noneAddressing, length := 1, cycles := 7 })] } }) =
      some (.noHandler 0x02) := by decide
theorem test_load_places_program_and_vector :
    ((load [0xA9, 0x05, 0x00] State.reset).toOption.bind fun t => t.doReset.toOption.map fun u =>
      (u.pc, u.busRead 0x0600)) = some (0x0600, .ok 0xA9) := by decide
theorem test_no_reset_from_faulted :
    ({ at0600 [0xE8] with rs := .faulted (.illegalWrite 0x8500 0x42) } : State).doReset =
      .error (.noResetFromFaulted (.illegalWrite 0x8500 0x42)) := rfl
theorem test_reset_from_halted :
    (({ at0600 [0xE8] with rs := .halted, a := 0x55 } : State).doReset.toOption.map fun t =>
      (t.a, t.rs, t.busRead 0x0600)) = some (0x00, .running, .ok 0xE8) := by decide
theorem test_load_refuses :
    load [0xA9] { State.reset with params := { Params.default with loadAddr := 0x2000 } } =
      .error (.loadRange 0x2000) := by decide
theorem test_launch_refuses_length : launch [0x00] 0 [] Params.default [] = .error (.prgLength 1) := by decide

/-! Witnesses: states and operands that meet the hypotheses of each statement, clause by clause. -/

/-- The states the witnesses for operand rows use: PC at the first operand byte of an absolute operand. -/
def atOperand (bytes : List Byte) : State := at0600 bytes

/-- PC at the last byte of RAM, so that a second operand byte lies in the video window. -/
def straddling : State := { at0600 [] with pc := 0x1FFF }

/-- The three cases of a row that reads its operand: an operand byte that raises, an effective address at
the first byte of the video window, and one at the last byte of work RAM. -/
def readCases (i : Instr) : Bool :=
  decide (effectiveAddress i.entry straddling = .error (.unimplementedSubsystem 0x2000 .read)) &&
  decide (effectiveAddress i.entry (atOperand [0x00, 0x20]) = .ok 0x2000) &&
  decide (effectiveAddress i.entry (atOperand [0xFF, 0x1F]) = .ok 0x1FFF) &&
  decide ((atOperand [0xFF, 0x1F]).busRead 0x1FFF = .ok 0x00)

/-- The further cases of a row that writes its effective address: the first byte of PRG-ROM, the last
byte of the unmapped region, and canonical memories. -/
def writeCases (i : Instr) : Bool :=
  decide (effectiveAddress i.entry (atOperand [0x00, 0x80]) = .ok 0x8000) &&
  decide (effectiveAddress i.entry (atOperand [0xFF, 0x7F]) = .ok 0x7FFF) &&
  decide ((atOperand [0x00, 0x80]).busRead 0x8000 = .ok 0x00) &&
  Memory.wf ramBytes (atOperand [0xFF, 0x1F]).ram &&
  Memory.wf (prgBytes (atOperand [0xFF, 0x1F]).params.prgSize) (atOperand [0xFF, 0x1F]).params.prg

theorem witness_video_window : InVideoWindow 0x2000 ∧ InVideoWindow 0x3FFF ∧ ¬ InVideoWindow 0x1FFF ∧
    ¬ InVideoWindow 0x4000 ∧ InPrgWindow 0x8000 ∧ ¬ InPrgWindow 0x7FFF := by
  unfold InVideoWindow InPrgWindow
  decide

theorem witness_LoadsSetTheRegisterAndZN : readCases .ldaAbs && readCases .ldxAbs && readCases .ldyAbs := by
  decide
theorem witness_StoresWriteTheRegister :
    ([Instr.staAbs, .stxAbs, .styAbs].all fun i => readCases i && writeCases i) = true := by decide
theorem witness_MemoryStepsReadModifyWrite :
    ([Instr.incAbs, .decAbs].all fun i => readCases i && writeCases i) = true := by decide
theorem witness_ShiftsMoveTheLostBitToCarry :
    ([Instr.aslAbs, .lsrAbs].all fun i => readCases i && writeCases i) = true := by decide
theorem witness_RotateLeftGoesThroughCarry : readCases .rolAbs && writeCases .rolAbs := by decide
theorem witness_RotateRightGoesThroughCarry : readCases .rorAbs && writeCases .rorAbs := by decide
/-- The settings of P_ROT_Z that the rotates' Z clauses speak of. -/
theorem witness_RotateZSettings :
    State.reset.params.rotZ = .never ∧ State.reset.params.rotZ ≠ .always ∧
      ({ Params.default with rotZ := .always } : Params).rotZ = .always ∧
      ({ Params.default with rotZ := .accOnly } : Params).rotZ ≠ .never := by decide
/-- A rotate of A, and one of the last byte of work RAM, which no operand byte of it is. -/
theorem witness_NineRotatesRestoreByteAndCarry :
    Instr.rorAcc ∈ [Instr.rolAcc, .rorAcc] ∧ MemoryCanonical (atOperand [0xFF, 0x1F]) ∧
      effectiveAddress Instr.rolAbs.entry (atOperand [0xFF, 0x1F]) = .ok 0x1FFF ∧
      (0x1FFF : Word).toNat ≤ 0x1FFF ∧ sameRamByte 0x1FFF (atOperand [0xFF, 0x1F]).pc = false ∧
      sameRamByte 0x1FFF ((atOperand [0xFF, 0x1F]).pc + 1) = false :=
  ⟨by decide, ⟨rfl, rfl⟩, by decide, by decide, by decide, by decide⟩
theorem witness_LogicCombinesBitwiseIntoA :
    readCases .andAbs && readCases .eorAbs && readCases .oraAbs := by decide
theorem witness_AdcAddsWithCarry : readCases .adcAbs := by decide
theorem witness_SbcSubtractsWithBorrow : readCases .sbcAbs := by decide
theorem witness_ComparesSetCarryZeroNegative :
    readCases .cmpAbs && readCases .cpxAbs && readCases .cpyAbs := by decide
theorem witness_BitTestsMemoryAgainstA : readCases .bitAbs := by decide

theorem witness_EncodedInstructionDecodes :
    (AsmInstr.mk .rti .none).wf && (AsmInstr.mk .bne (.byte 0xFF)).wf &&
      (AsmInstr.mk .jmpInd (.word 0xFFFF)).wf := by decide
theorem witness_DecodedBytesReencode :
    decode [0x6C, 0xFF, 0xFF, 0x02] = .ok (⟨.jmpInd, .word 0xFFFF⟩, [0x02]) := by decide
theorem witness_UnassignedOpcodeRaises :
    (at0600 [0xFF]).rs = .running ∧ (at0600 [0xFF]).params.tableEdits = [] ∧
      decodeOpcode 0xFF = none ∧ (at0600 [0xFF]).busRead (at0600 [0xFF]).pc = .ok 0xFF := by
  decide
/-- One state for each of the two ways a byte has no entry. -/
theorem witness_MissingEntryLeavesTheStateIntact :
    ((at0600 [0x02]).params.tableEdits.lookup 0x02 = none ∧ decodeOpcode 0x02 = none) ∧
      (at0600 [0x02]).busRead 0x0600 = .ok 0x02 ∧
      ({ Params.default with tableEdits := [(0xEA, none)] } : Params).tableEdits.lookup 0xEA =
        some none := by decide
theorem witness_StepRunsTheDecodedInstruction :
    (at0600 [0xAD, 0x00, 0x20]).busRead 0x0600 = .ok 0xAD ∧ decodeOpcode 0xAD = some .ldaAbs ∧
      (at0600 []).params.tableEdits.lookup 0xAD = none ∧
      faultOf (exec .ldaAbs { at0600 [0xAD, 0x00, 0x20] with pc := 0x0601 }) =
        some (.unimplementedSubsystem 0x2000 .read) ∧
      runStateOf (exec .brk (at0600 [])) = some .halted ∧
      runStateOf (exec .nop (at0600 [])) = some .running ∧
      regs (exec .jmpAbs { at0600 [0x4C, 0x00, 0x06] with pc := 0x0601 }) =
        some (0, 0, 0, 0xFD, 0x22, 0x0600) := by decide
/-- A Halted state whose byte at PC decodes, and a next state with bus writes in the observer's queue. -/
theorem witness_StepRunsTheDecodedInstruction_halted_and_observer :
    let s : State := { at0600 [0xEA] with rs := .halted, observer := [[(0x0000, 0x77)]] }
    s.rs = .halted ∧ s.busRead s.pc = .ok 0xEA ∧ s.params.tableEdits.lookup 0xEA = none ∧
      decodeOpcode 0xEA = some .nop ∧
      exec .nop { s with pc := s.pc + 1, rs := .running } =
        .next { at0600 [0xEA] with pc := 0x0601, observer := [(0x0000, 0x77)] :: [] } :=
  ⟨by decide, by decide, by decide, by decide, rfl⟩
/-- An entry of another table at byte 0x02, with no addressing mode. -/
def entry02 (m : Mnemonic) : OpcodeEntry :=
  { code := 0x02, mnemonic := m.name, mode := .noneAddressing, length := 2, cycles := 2 }

/-- A state under the table with that entry, about to fetch the byte. -/
def edited02 (m : Mnemonic) : State :=
  { at0600 [0x02] with params := { Params.default with tableEdits := [(0x02, some (entry02 m))] } }

/-- An entry of another table that completes; and below one that raises, and those that are refused. -/
theorem witness_StepRunsTheDecodedInstruction_other_table :
    (edited02 .inx).busRead (edited02 .inx).pc = .ok 0x02 ∧
      (edited02 .inx).params.tableEdits.lookup 0x02 = some (some (entry02 .inx)) ∧
      regs (executeEntry (entry02 .inx) { edited02 .inx with pc := 0x0601 }) =
        some (0, 1, 0, 0xFD, 0x20, 0x0601) ∧
      regs (step (edited02 .inx)) = some (0, 1, 0, 0xFD, 0x20, 0x0602) :=
  ⟨by decide, rfl, by decide, by decide⟩
theorem witness_StepRunsTheDecodedInstruction_other_table_stops :
    faultOf (executeEntry (entry02 .lda) { edited02 .lda with pc := 0x0601 }) =
        some (.unsupportedAddressingMode 0x02 .noneAddressing) ∧
      refusalOf (executeEntry (entry02 .jmp) { edited02 .jmp with pc := 0x0601 }) =
        some (.noHandler 0x02) ∧
      refusalOf (executeEntry (entry02 .brk) { edited02 .brk with pc := 0x0601 }) =
        some (.noHandler 0x02) ∧
      refusalOf (executeEntry { entry02 .brk with mnemonic := "LAX" } { edited02 .brk with pc := 0x0601 }) =
        some (.noHandler 0x02) := by decide
theorem witness_PcWriteOfItsOwnValueMeetsTheSkipRule :
    (at0600 [0x90, 0xFF]).busRead 0x0600 = .ok Instr.bcc.entry.code ∧
      (at0600 [0x90, 0xFF]).busRead (0x0600 + 1) = .ok 0xFF ∧ (at0600 []).flag .c = false ∧
      (at0600 []).observer = [] ∧ (at0600 []).params.skipRule = .valueCompare ∧
      ({ Params.default with skipRule := .classBased } : Params).skipRule = .classBased ∧
      (at0600 [0x4C, 0x01, 0x06]).busRead 0x0600 = .ok Instr.jmpAbs.entry.code ∧
      regs (exec .jmpAbs { at0600 [0x4C, 0x01, 0x06] with pc := 0x0600 + 1 }) =
        some (0, 0, 0, 0xFD, 0x22, 0x0600 + 1) := by decide
theorem witness_StraightLineStepAdvancesByLength :
    Instr.nop.mnemonic ∉ [Mnemonic.bcc, .bcs, .beq, .bne, .bpl, .bmi, .bvc, .bvs, .jmp, .jsr, .rts,
        .rti, .brk] ∧ decodeOpcode 0xEA = some .nop ∧
      runStateOf (step (at0600 [0xEA])) = some .running := by decide
/-- A BCC not taken whose offset byte would raise, and a JMP whose target is not its own operand. -/
theorem witness_StraightLineStep_branch_and_jump :
    ({ poke straddling [(0x7FF, 0x90)] with p := 0x23 } : State).busRead 0x1FFF = .ok Instr.bcc.entry.code ∧
      ({ poke straddling [(0x7FF, 0x90)] with p := 0x23 } : State).flag .c ≠ false ∧
      (at0600 [0x4C, 0x00, 0x06]).busRead 0x0600 = .ok Instr.jmpAbs.entry.code ∧
      (at0600 [0x4C, 0x00, 0x06]).observer = [] ∧
      regs (exec .jmpAbs { at0600 [0x4C, 0x00, 0x06] with pc := 0x0600 + 1 }) =
        some (0, 0, 0, 0xFD, 0x22, 0x0600) ∧ (0x0600 : Word) ≠ 0x0600 + 1 := by decide
/-- A state that meets the hypotheses, whose step raises the last of the three errors. -/
theorem witness_StepCompletesOrRaisesOneOfThreeErrors :
    (at0600 [0x8D, 0x00, 0x80]).rs = .running ∧ (at0600 []).params.tableEdits = [] ∧
      faultOf (step (at0600 [0x8D, 0x00, 0x80])) = some (.illegalWrite 0x8000 0x00) := by decide
theorem witness_FetchOutsideRamAndRom :
    ({ at0600 [] with pc := 0x7FFF } : State).rs = .running ∧
      0x4000 ≤ (0x7FFF : Word).toNat ∧ (0x7FFF : Word).toNat ≤ 0x7FFF := by
  simp [at0600, State.reset]
/-- BRK at byte 0x00 by another table's entry too. -/
theorem witness_HaltIsReachedByOpcodeZeroAlone_other_table :
    let e : OpcodeEntry :=
      { code := 0x00, mnemonic := "BRK", mode := .noneAddressing, length := 2, cycles := 7 }
    let s : State :=
      { at0600 [0x00] with rs := .halted, params := { Params.default with tableEdits := [(0x00, some e)] } }
    s.rs = .halted ∧ s.params.tableEdits.lookup 0x00 = some (some e) ∧ e.mnemonic = "BRK" ∧
      s.busRead s.pc = .ok 0x00 ∧ runStateOf (step s) = some .halted :=
  ⟨rfl, rfl, rfl, by decide, by decide⟩
theorem witness_HaltIsReachedByOpcodeZeroAlone :
    (at0600 [0x00]).busRead 0x0600 = .ok 0x00 ∧ runStateOf (step (at0600 [0x00])) = some .halted := by
  decide
theorem witness_StepFromHaltedResumesAndFromFaultedIsNone :
    ({ at0600 [] with rs := .halted } : State).rs = .halted ∧
      ({ at0600 [] with rs := .faulted .invalidContainer } : State).rs = .faulted .invalidContainer := by
  decide
/-- One queue whose write raises and one whose write lands. -/
theorem witness_ObserverWritesTheBusAfterTheStep :
    (at0600 [0xEA]).busRead 0x0600 = .ok 0xEA ∧ (at0600 [0xEA]).rs = .running ∧
      (({ at0600 [0xEA] with observer := [[(0x8000, 0x77)]] } : State).busWrite 0x8000 0x77 =
        .error (.illegalWrite 0x8000 0x77)) ∧
      (({ at0600 [0xEA] with observer := [[(0x7FFF, 0x77)]] } : State).busWrite 0x7FFF 0x77 =
        .ok { at0600 [0xEA] with observer := [[(0x7FFF, 0x77)]] }) := by decide
/-- Steps without an observer that raise, halt and complete, each of a state with a queue. -/
theorem witness_ObserverWritesTheBusAfterTheStep_any_instruction :
    let queued (code : Byte) : State := { at0600 [code] with observer := [(0x0000, 0x77)] :: [] }
    let quiet (code : Byte) : State := { queued code with observer := [] }
    (queued 0xE8).rs = .running ∧ (queued 0xE8).params.tableEdits = [] ∧
      faultOf (step (quiet 0x02)) = some (.unrecognizedOpcode 0x02 0x0600) ∧
      runStateOf (step (quiet 0x00)) = some .halted ∧
      runStateOf (step (quiet 0xE8)) = some .running ∧
      runStateOf (step (queued 0xE8)) = some .running := by decide
/-- The operand bytes can be read at the last two bytes of RAM, and every mode is some row's. -/
theorem witness_ResolverComputesEveryMode :
    ({ at0600 [] with pc := 0x1FFE } : State).busRead 0x1FFE = .ok 0x00 ∧
      ({ at0600 [] with pc := 0x1FFE } : State).busRead (0x1FFE + 1) = .ok 0x00 ∧
      [Instr.ldaImm, .ldaZp, .ldaZpX, .ldxZpY, .ldaAbs, .ldaAbsX, .ldaAbsY, .ldaIndX, .ldaIndY].map
          (fun i => i.entry.mode) =
        [.immediate, .zeroPage, .zeroPageX, .zeroPageY, .absolute, .absoluteX, .absoluteY, .indirectX,
          .indirectY] := by decide
theorem witness_NoneAddressingIsUnsupported : Instr.tax.entry.mode = .noneAddressing := by decide
/-- An entry of another table that pairs a resolving handler with NoneAddressing, and one of a rotate whose
code is no accumulator form's. -/
theorem witness_NoneAddressingIsUnsupported_other_table :
    (edited02 .lda).rs = .running ∧ (edited02 .lda).busRead (edited02 .lda).pc = .ok 0x02 ∧
      (edited02 .lda).params.tableEdits.lookup 0x02 = some (some (entry02 .lda)) ∧
      (entry02 .lda).mnemonic = Mnemonic.lda.name ∧ (entry02 .lda).mode = .noneAddressing ∧
      (edited02 .ror).params.tableEdits.lookup 0x02 = some (some (entry02 .ror)) ∧
      (0x02 : Byte).toNat % 16 ≠ 10 :=
  ⟨rfl, by decide, rfl, rfl, rfl, rfl, by decide⟩
theorem witness_ResolverRaisesOnlyForOperandBytes :
    Instr.ldaZp.entry.mode ≠ .noneAddressing ∧ Instr.ldaImm.entry.mode = .immediate ∧
      effectiveAddress Instr.ldaImm.entry { at0600 [] with pc := 0x2000 } = .ok 0x2000 ∧
      effectiveAddress Instr.ldaIndY.entry { at0600 [] with pc := 0x4000 } = .ok 0x0000 ∧
      effectiveAddress Instr.ldaZp.entry { at0600 [] with pc := 0x3FFF } =
        .error (.unimplementedSubsystem 0x3FFF .read) ∧
      effectiveAddress Instr.ldaAbsX.entry straddling = .error (.unimplementedSubsystem 0x2000 .read) := by
  decide
theorem witness_BusByRegion :
    (0x1FFF : Word).toNat ≤ 0x1FFF ∧ 0x2000 ≤ (0x2000 : Word).toNat ∧ (0x3FFF : Word).toNat ≤ 0x3FFF ∧
      0x4000 ≤ (0x4000 : Word).toNat ∧ (0x7FFF : Word).toNat ≤ 0x7FFF ∧ 0x8000 ≤ (0x8000 : Word).toNat ∧
      State.reset.params.prgSize = .k16 ∧ (pokePrg State.reset .k32 []).params.prgSize = .k32 := by
  simp [pokePrg, State.reset, Params.default]
theorem witness_RamIsMirroredFourTimes : 0x7FF < 0x800 ∧ 3 < 4 := by decide
theorem witness_ReadReturnsTheByteWritten :
    MemoryCanonical State.reset ∧
      State.reset.busWrite 0x1FFF 0x01 = .ok { State.reset with ram := [(0x7FF, 0x01)] } :=
  ⟨⟨rfl, rfl⟩, by decide⟩
theorem witness_SixteenBitAccessIsTwoBytes :
    State.reset.busRead 0xFFFF = .ok 0x00 ∧
      State.reset.busRead (BitVec.ofNat 16 (((0xFFFF : Word).toNat + 1) % 65536)) = .ok 0x00 ∧
      State.reset.busWrite 0x07FF (BitVec.ofNat 8 ((0x0100 : Word).toNat % 256)) = .ok State.reset ∧
      State.reset.busWrite (BitVec.ofNat 16 (((0x07FF : Word).toNat + 1) % 65536))
        (BitVec.ofNat 8 ((0x0100 : Word).toNat / 256)) = .ok { State.reset with ram := [(0, 0x01)] } := by
  decide
/-- Accesses whose first byte raises, and whose second does: the window's edge for a read, and for a write
the edge between the unmapped region and PRG-ROM. -/
theorem witness_SixteenBitAccess_errors :
    State.reset.busRead 0x2000 = .error (.unimplementedSubsystem 0x2000 .read) ∧
      State.reset.busRead 0x1FFF = .ok 0x00 ∧
      State.reset.busRead (BitVec.ofNat 16 (((0x1FFF : Word).toNat + 1) % 65536)) =
        .error (.unimplementedSubsystem 0x2000 .read) ∧
      State.reset.busWrite 0x8000 0x34 = .error (.illegalWrite 0x8000 0x34) ∧
      State.reset.busWrite 0x7FFF 0x34 = .ok State.reset ∧
      State.reset.busWrite (BitVec.ofNat 16 (((0x7FFF : Word).toNat + 1) % 65536)) 0x12 =
        .error (.illegalWrite 0x8000 0x12) := by decide
theorem witness_StepKeepsTheInvariant :
    Inv (at0600 [0x28]) ∧ runStateOf (step (at0600 [0x28])) = some .running :=
  ⟨⟨⟨rfl, rfl⟩, ⟨rfl, rfl⟩⟩, by decide⟩
theorem witness_StepKeepsTheCartridge : runStateOf (step (at0600 [0x48])) = some .running := by decide
/-- NOP writes no register and no flag, and completes. -/
theorem witness_RegistersAndFlagsChangeOnlyByTheirWriters :
    runStateOf (exec .nop (at0600 [])) = some .running ∧ Instr.nop.mnemonic = .nop ∧
      Instr.nop ∉ [Instr.aslAcc, .lsrAcc, .rolAcc, .rorAcc] := by decide
/-- For each of the two flags, an instruction that completes; and one that raises. -/
theorem witness_InterruptAndDecimalFlagsSteerNothing :
    Instr.sed.mnemonic ∉ [Mnemonic.cli, .sei, .php, .plp, .rti] ∧
      Instr.adcImm.mnemonic ∉ [Mnemonic.cld, .sed, .php, .plp, .rti] ∧
      runStateOf (exec .sed (at0600 [])) = some .running ∧
      runStateOf (exec .adcImm (at0600 [0x01])) = some .running ∧
      faultOf (exec .adcImm { at0600 [] with pc := 0x2000 }) =
        some (.unimplementedSubsystem 0x2000 .read) := by decide
/-- A state of each run state that reset() is asked for in. -/
theorem witness_ResetGivesTheStatedValues :
    State.reset.rs = .running ∧ ({ State.reset with rs := .halted } : State).rs = .halted ∧
      ({ State.reset with rs := .faulted .invalidContainer } : State).rs = .faulted .invalidContainer := by decide
theorem witness_LaunchAcceptsMapperZeroImages :
    ([] : List Byte).length ≠ 0x4000 ∧ ([] : List Byte).length ≠ 0x8000 ∧ (1 : Byte) ≠ 0 ∧
      (List.replicate 0x8000 (0xEA : Byte)).length = 0x8000 ∧
      (List.replicate 0x4000 (0xEA : Byte)).length = 0x4000 ∧
      (List.replicate 0x800 (0x00 : Byte)).length = 0x800 ∧ ([] : List Byte).length ≠ 0x800 :=
  ⟨by decide, by decide, by decide, List.length_replicate, List.length_replicate, List.length_replicate,
    by decide⟩
/-- A program of two bytes at the last two addresses before the video window, which is stored; one of
three bytes there, whose last is not; and one of two bytes just below the vector. -/
theorem witness_LoadThenResetStartsTheProgram :
    let s (base : Word) : State := { State.reset with params := { Params.default with loadAddr := base } }
    (MemoryCanonical (s 0x1FFE) ∧ MemoryCanonical (s 0xFFFA)) ∧
      (∀ k, k < [(0xEA : Byte), 0x00].length →
        ¬ (0x2000 ≤ ((s 0x1FFE).params.loadAddr.toNat + k) % 65536 ∧
          ((s 0x1FFE).params.loadAddr.toNat + k) % 65536 ≤ 0x7FFF)) ∧
      ((s 0x1FFE).params.loadAddr.toNat + [(0xEA : Byte), 0x00].length ≤ 0x2000) ∧
      (2 < [(0xEA : Byte), 0x00, 0x00].length ∧
        0x2000 ≤ ((s 0x1FFE).params.loadAddr.toNat + 2) % 65536 ∧
        ((s 0x1FFE).params.loadAddr.toNat + 2) % 65536 ≤ 0x7FFF) ∧
      (∀ k, k < [(0xEA : Byte), 0x00].length →
        ¬ (0x2000 ≤ ((s 0xFFFA).params.loadAddr.toNat + k) % 65536 ∧
          ((s 0xFFFA).params.loadAddr.toNat + k) % 65536 ≤ 0x7FFF)) ∧
      0xC000 ≤ (s 0xFFFA).params.loadAddr.toNat ∧
      (s 0xFFFA).params.loadAddr.toNat + [(0xEA : Byte), 0x00].length ≤ 0xFFFC :=
  ⟨⟨⟨rfl, rfl⟩, ⟨rfl, rfl⟩⟩, by decide, by decide, by decide, by decide, by decide, by decide⟩
/-- The same program in the run states that its clauses speak of. -/
theorem witness_LoadThenReset_run_states :
    let s (rs : RunState) : State := { State.reset with rs := rs }
    MemoryCanonical (s .halted) ∧ (s .running).rs = .running ∧ (s .halted).rs = .halted ∧
      (s (.faulted .invalidContainer)).rs = .faulted .invalidContainer ∧
      ∀ k, k < [(0xEA : Byte)].length → ¬ (0x2000 ≤ (0x0600 + k) % 65536 ∧ (0x0600 + k) % 65536 ≤ 0x7FFF) :=
  ⟨⟨rfl, rfl⟩, rfl, rfl, rfl, by decide⟩
/-- A raise of each kind the clauses speak of. -/
theorem witness_RaiseEndsTheRunInFaulted :
    faultOf (step (at0600 [0x02])) = some (.unrecognizedOpcode 0x02 0x0600) ∧
      faultOf (step (at0600 [0x8D, 0x00, 0x80])) = some (.illegalWrite 0x8000 0x00) := by decide
/-- BCC taken, not taken, and taken with an offset byte that raises. -/
theorem witness_BranchesTestTheirFlag :
    (at0600 [0xFF]).flag .c = false ∧ (at0600 [0xFF]).busRead 0x0600 = .ok 0xFF ∧
      ({ at0600 [] with p := 0x23 } : State).flag .c ≠ false ∧
      ({ at0600 [] with pc := 0x2000 } : State).busRead 0x2000 =
        .error (.unimplementedSubsystem 0x2000 .read) := by decide
theorem witness_JumpsSetThePc :
    straddling.read16 0x1FFF = .error (.unimplementedSubsystem 0x2000 .read) ∧
      (at0600 [0xFF, 0x1F]).busRead 0x0600 = .ok 0xFF ∧
      (at0600 [0xFF, 0x1F]).busRead (0x0600 + 1) = .ok 0x1F ∧
      (at0600 [0xFF, 0x1F]).read16 0x1FFF = .error (.unimplementedSubsystem 0x2000 .read) ∧
      (at0600 [0xFE, 0x1F]).busRead 0x1FFE = .ok 0x00 ∧
      (at0600 [0xFE, 0x1F]).busRead (0x1FFE + 1) = .ok 0x00 := by decide
theorem witness_JsrPushesThenJumps :
    (at0600 [0x10, 0x06]).busRead 0x0600 = .ok 0x10 ∧
      (at0600 [0x10, 0x06]).busRead (0x0600 + 1) = .ok 0x06 ∧
      straddling.read16 straddling.pc = .error (.unimplementedSubsystem 0x2000 .read) := by decide
/-- The state right after the JSR is one the RTS may run in. -/
theorem witness_RtsReturnsToAfterTheJsr :
    MemoryCanonical (at0600 [0x10, 0x06]) ∧
      regs (exec .jsr (at0600 [0x10, 0x06])) = some (0, 0, 0, 0xFB, 0x22, 0x0610) :=
  ⟨⟨rfl, rfl⟩, by decide⟩
theorem witness_PushesAndPops : MemoryCanonical { at0600 [] with sp := 0x00 } := ⟨rfl, rfl⟩

end Sys2Proof.Tests
end

section
/-! The bus (20_memory.md): the four mirrors of work RAM. -/

namespace Sys2Proof.Machine

/-- The number of mirror `k` of work-RAM index `a`: four copies of 0x800 bytes do not wrap in 16 bits. -/
theorem toNat_ramMirror {a k : Nat} (ha : a < 0x800) (hk : k < 4) :
    (BitVec.ofNat 16 (a + k * 0x800)).toNat = a + k * 0x800 := by
  rw [BitVec.toNat_ofNat]
  omega

/-- Every mirror lies below 0x2000 (R54). -/
theorem region_ramMirror {a k : Nat} (ha : a < 0x800) (hk : k < 4) :
    region (BitVec.ofNat 16 (a + k * 0x800)) = .ram := by
  rw [region_eq_ram, toNat_ramMirror ha hk]
  omega

/-- R54's mask takes every mirror to one index. -/
theorem ramIndex_ramMirror {a k : Nat} (ha : a < 0x800) (hk : k < 4) :
    ramIndex (BitVec.ofNat 16 (a + k * 0x800)) = a := by
  rw [ramIndex_eq_mod, toNat_ramMirror ha hk]
  omega

/-- Settles O22: a mirror is a work-RAM address whose index is that of the byte it mirrors. -/
theorem ramIsMirroredFourTimes : Obligations.RamIsMirroredFourTimes := by
  intro s a k v ha hk
  have hregion := region_ramMirror ha hk
  have hindex := ramIndex_ramMirror ha hk
  constructor
  · rw [busRead_ram hregion, hindex]
  · rw [busWrite_ram hregion, hindex]
    rfl

end Sys2Proof.Machine
end

section
/-! The engine (40_engine.md): a byte with no entry in the opcode table. -/

namespace Sys2Proof.Machine

/-- The two ways a table lacks an entry (R105): no edit at a byte with no row of R84, or an edit that
removes the entry. -/
theorem tableCell_absent_iff {edits : List (Byte × Option OpcodeEntry)} {b : Byte} :
    tableCell edits b = .absent ↔
      (edits.lookup b = none ∧ decodeOpcode b = none) ∨ edits.lookup b = some none := by
  unfold tableCell
  cases edits.lookup b with
  | none => cases decodeOpcode b <;> simp
  | some cell => cases cell <;> simp

/-- After a step that raises, the host sees the Faulted state of that raise. -/
theorem afterStep_of_fault {s : State} {f : Fault} (h : step s = .fault f) :
    afterStep s = s.enterFaulted f := by
  simp [afterStep, h]

/-- UnrecognizedOpcode is the raise that writes nothing but the run state (R105). -/
theorem enterFaulted_unrecognizedOpcode (s : State) (b : Byte) (pc : Word) :
    s.enterFaulted (.unrecognizedOpcode b pc) = { s with rs := .faulted (.unrecognizedOpcode b pc) } := rfl

/-- Settles O6: either way of lacking an entry makes the cell absent, so the step raises
UnrecognizedOpcode, whose Faulted state is the state before the step but for RS. -/
theorem missingEntryLeavesTheStateIntact : Obligations.MissingEntryLeavesTheStateIntact := by
  intro s b hrs hread hmissing
  have hstep : step s = .fault (.unrecognizedOpcode b s.pc) :=
    (step_running hrs).trans (engineStep_absent hread (tableCell_absent_iff.2 hmissing))
  exact ⟨hstep, (afterStep_of_fault hstep).trans (enterFaulted_unrecognizedOpcode s b s.pc)⟩

end Sys2Proof.Machine
end

section
/-! Loads and stores (41_load_store.md). -/

namespace Sys2Proof.Machine

/-- SetZN's Negative flag is bit 7 of its argument (R16). -/
theorem setZN_flag_n (s : State) (v : Byte) : (s.setZN v).flag .n = v.getLsbD 7 := by
  rw [State.setZN_flag, if_pos rfl, BitVec.msb_eq_getLsbD_last]

/-- After a change of registers alone, SetZN adds Z and N to what is changed, and nothing else. -/
theorem setZN_keepsAllBut {regs : List RegName} {s t : State} (h : KeepsAllBut regs [] s t)
    (v : Byte) : KeepsAllBut regs [.z, .n] s (t.setZN v) := by
  obtain ⟨ha, hx, hy, hsp, hpc, hrs, hflag, hparams, hobserver, hdraw⟩ := h
  refine ⟨ha, hx, hy, hsp, hpc, hrs, fun f hf => ?_, hparams, hobserver, hdraw⟩
  obtain ⟨hz, hn⟩ : f ≠ .z ∧ f ≠ .n := by simpa using hf
  rw [State.setZN_flag, if_neg hn, if_neg hz]
  exact hflag f (by simp)

theorem setA_keepsAllBut (s : State) (v : Byte) : KeepsAllBut [.a] [] s (s.setA v) := by
  simp [KeepsAllBut]

theorem setX_keepsAllBut (s : State) (v : Byte) : KeepsAllBut [.x] [] s (s.setX v) := by
  simp [KeepsAllBut]

theorem setY_keepsAllBut (s : State) (v : Byte) : KeepsAllBut [.y] [] s (s.setY v) := by
  simp [KeepsAllBut]

/-- What the three loads share: `set` puts the byte read in the register `reg`, which `get` reads, and
SetZN follows. -/
theorem readsOperand_load {i : Instr} {reg : RegName} {get : State → Byte}
    {set : State → Byte → State}
    (hexec : ∀ s, exec i s = outcome (withOperand i.entry s fun t v => (set t v).setZN v))
    (hget : ∀ s v, get ((set s v).setZN v) = v)
    (hkeeps : ∀ s v, KeepsAllBut [reg] [] s (set s v))
    (hsame : ∀ s v, (set s v).params = s.params ∧ (set s v).ram = s.ram) :
    ReadsOperand i fun s v t => get t = v ∧ t.flag .z = (v == 0) ∧ t.flag .n = v.getLsbD 7 ∧
      KeepsAllBut [reg] [.z, .n] s t :=
  readsOperand_of hexec
    (fun s v => ⟨hget s v, by simp, setZN_flag_n _ v, setZN_keepsAllBut (hkeeps s v) v⟩) hsame

/-- Settles O35: every row of a mnemonic is that load at its own mode, so each is an instance of
`readsOperand_load` with its register. -/
theorem loadsSetTheRegisterAndZN : Obligations.LoadsSetTheRegisterAndZN := by
  refine ⟨fun r hr => ?lda, fun r hr => ?ldx, fun r hr => ?ldy⟩
  case lda =>
    fin_cases hr <;> exact ⟨⟨rfl, rfl⟩, readsOperand_load (get := State.a) (set := State.setA)
      (fun _ => rfl) (fun _ _ => rfl) setA_keepsAllBut (fun _ _ => ⟨rfl, rfl⟩)⟩
  case ldx =>
    fin_cases hr <;> exact ⟨⟨rfl, rfl⟩, readsOperand_load (get := State.x) (set := State.setX)
      (fun _ => rfl) (fun _ _ => rfl) setX_keepsAllBut (fun _ _ => ⟨rfl, rfl⟩)⟩
  case ldy =>
    fin_cases hr <;> exact ⟨⟨rfl, rfl⟩, readsOperand_load (get := State.y) (set := State.setY)
      (fun _ => rfl) (fun _ _ => rfl) setY_keepsAllBut (fun _ _ => ⟨rfl, rfl⟩)⟩

/-- Settles O36: every row of a mnemonic is `storeByte` of that register at its own mode, and
`storesByte_of` says what that can do. -/
theorem storesWriteTheRegister : Obligations.StoresWriteTheRegister := by
  refine ⟨fun r hr => ?sta, fun r hr => ?stx, fun r hr => ?sty⟩
  case sta => fin_cases hr <;> exact ⟨⟨rfl, rfl⟩, storesByte_of fun _ => rfl⟩
  case stx => fin_cases hr <;> exact ⟨⟨rfl, rfl⟩, storesByte_of fun _ => rfl⟩
  case sty => fin_cases hr <;> exact ⟨⟨rfl, rfl⟩, storesByte_of fun _ => rfl⟩

end Sys2Proof.Machine
end

section
/-! Register transfers (42_transfer.md). -/

namespace Sys2Proof.Machine

theorem setSp_keepsAllBut (s : State) (v : Byte) : KeepsAllBut [.sp] [] s (s.setSp v) := by
  simp [KeepsAllBut]

/-- A frame keeps the parameters, so with the same work RAM it keeps the memory. -/
theorem memoryKept_of_keepsAllBut {regs : List RegName} {flags : List Flag} {s t : State}
    (h : KeepsAllBut regs flags s t) (hram : t.ram = s.ram) : MemoryKept s t := by
  obtain ⟨-, -, -, -, -, -, -, hparams, -, -⟩ := h
  exact memoryKept_of_same hparams hram

/-- What an instruction that sets the register `reg`, read by `get`, and then Z and N from the same byte
leaves: `t` is the state after the register's own change. -/
theorem exec_setZN_after_register {i : Instr} {reg : RegName} {get : State → Byte} {s t : State}
    {v : Byte} (hexec : exec i s = .next (t.setZN v)) (hget : get (t.setZN v) = v)
    (hkeeps : KeepsAllBut [reg] [] s t) (hram : t.ram = s.ram) :
    ∃ u, exec i s = .next u ∧ get u = v ∧ u.flag .z = (v == 0) ∧ u.flag .n = v.getLsbD 7 ∧
      KeepsAllBut [reg] [.z, .n] s u ∧ MemoryKept s u :=
  have hframe := setZN_keepsAllBut hkeeps v
  ⟨t.setZN v, hexec, hget, by simp, setZN_flag_n t v, hframe, memoryKept_of_keepsAllBut hframe hram⟩

/-- Settles O37: five transfers are one register's setter followed by SetZN of the same byte, so each is an
instance of `exec_setZN_after_register`; TXS is the stack pointer's setter alone. -/
theorem transfersCopyOneRegister : Obligations.TransfersCopyOneRegister := by
  refine ⟨⟨rfl, rfl⟩, ⟨rfl, rfl⟩, ⟨rfl, rfl⟩, ⟨rfl, rfl⟩, ⟨rfl, rfl⟩, ⟨rfl, rfl⟩, fun s =>
    ⟨?tax, ?tay, ?txa, ?tya, ?tsx, ?txs⟩⟩
  case tax => exact exec_setZN_after_register (get := State.x) rfl rfl (setX_keepsAllBut s s.a) rfl
  case tay => exact exec_setZN_after_register (get := State.y) rfl rfl (setY_keepsAllBut s s.a) rfl
  case txa => exact exec_setZN_after_register (get := State.a) rfl rfl (setA_keepsAllBut s s.x) rfl
  case tya => exact exec_setZN_after_register (get := State.a) rfl rfl (setA_keepsAllBut s s.y) rfl
  case tsx => exact exec_setZN_after_register (get := State.x) rfl rfl (setX_keepsAllBut s s.sp) rfl
  case txs => exact ⟨s.setSp s.x, rfl, rfl, setSp_keepsAllBut s s.x, memoryKept_of_same rfl rfl⟩

end Sys2Proof.Machine
end

section
/-! Increment and decrement (43_inc_dec.md). -/

namespace Sys2Proof.Machine

/-- One more in a byte is one more modulo 256. -/
theorem toNat_byte_add_one (v : Byte) : (v + 1).toNat = (v.toNat + 1) % 256 := by
  simp [BitVec.toNat_add]

/-- One less in a byte is 255 more modulo 256. -/
theorem toNat_byte_sub_one (v : Byte) : (v - 1).toNat = (v.toNat + 255) % 256 := by
  simp [BitVec.toNat_sub, Nat.add_comm]

/-- `exec_setZN_after_register`, with the register's new byte given as the number `n`, and Z and N read off
the register. -/
theorem exec_register_toNat {i : Instr} {reg : RegName} {get : State → Byte} {s t : State} {v : Byte}
    {n : Nat} (hexec : exec i s = .next (t.setZN v)) (hget : get (t.setZN v) = v)
    (hkeeps : KeepsAllBut [reg] [] s t) (hram : t.ram = s.ram) (hv : v.toNat = n) :
    ∃ u, exec i s = .next u ∧ (get u).toNat = n ∧ u.flag .z = (get u == 0) ∧
      u.flag .n = (get u).getLsbD 7 ∧ KeepsAllBut [reg] [.z, .n] s u ∧ MemoryKept s u := by
  obtain ⟨u, hu, rfl, hz, hn, hframe, hmem⟩ := exec_setZN_after_register hexec hget hkeeps hram
  exact ⟨u, hu, hv, hz, hn, hframe, hmem⟩

/-- Settles O38: each step is its register's setter followed by SetZN of the same byte, so each is an
instance of `exec_register_toNat`, and the byte wraps modulo 256. -/
theorem registerStepsWrapModulo256 : Obligations.RegisterStepsWrapModulo256 := by
  refine ⟨⟨rfl, rfl⟩, ⟨rfl, rfl⟩, ⟨rfl, rfl⟩, ⟨rfl, rfl⟩, fun s => ⟨?inx, ?iny, ?dex, ?dey⟩⟩
  case inx =>
    exact exec_register_toNat (get := State.x) rfl rfl (setX_keepsAllBut s _) rfl
      (toNat_byte_add_one s.x)
  case iny =>
    exact exec_register_toNat (get := State.y) rfl rfl (setY_keepsAllBut s _) rfl
      (toNat_byte_add_one s.y)
  case dex =>
    exact exec_register_toNat (get := State.x) rfl rfl (setX_keepsAllBut s _) rfl
      (toNat_byte_sub_one s.x)
  case dey =>
    exact exec_register_toNat (get := State.y) rfl rfl (setY_keepsAllBut s _) rfl
      (toNat_byte_sub_one s.y)

theorem setRam_keepsAllBut (s : State) (m : Memory) : KeepsAllBut [] [] s (s.setRam m) := by
  simp [KeepsAllBut]

/-- SetZN's Zero flag, by the number its argument is (R16). -/
theorem setZN_flag_z_toNat (s : State) (v : Byte) : (s.setZN v).flag .z = decide (v.toNat = 0) := by
  simp [beq_eq_decide, ← BitVec.toNat_inj]

/-- SetZN's Negative flag, by the number its argument is: bit 7 says that it is at least 128 (R16). -/
theorem setZN_flag_n_toNat (s : State) (v : Byte) :
    (s.setZN v).flag .n = decide (128 ≤ v.toNat) := by
  rw [State.setZN_flag, if_pos rfl, BitVec.msb_eq_decide]

/-- What INC and DEC share: a read-modify-write whose new byte `g v` is the number `n v`, followed by
SetZN of that byte. -/
theorem modifiesByte_setZN {i : Instr} {g : Byte → Byte} {n : Byte → Nat}
    (hexec : ∀ s, exec i s =
      outcome (modifyByte i.entry s (fun _ v => g v) fun t _ r => t.setZN r))
    (hg : ∀ v, (g v).toNat = n v) :
    ModifiesByte i (fun _ v => BitVec.ofNat 8 (n v)) fun s v t =>
      t.flag .z = decide (n v = 0) ∧ t.flag .n = decide (128 ≤ n v) ∧
      KeepsAllBut [] [.z, .n] s t := by
  have hbyte (v : Byte) : g v = BitVec.ofNat 8 (n v) := by
    rw [← hg v, BitVec.ofNat_toNat, BitVec.setWidth_eq]
  refine modifiesByte_of hexec (fun _ v => hbyte v) (fun s m v => ?_) fun _ _ _ => ⟨rfl, rfl⟩
  rw [← hbyte v, ← hg v]
  exact ⟨setZN_flag_z_toNat _ _, setZN_flag_n_toNat _ _,
    setZN_keepsAllBut (setRam_keepsAllBut s m) _⟩

/-- Settles O39: every row of a mnemonic is that read-modify-write at its own mode, so each is an instance
of `modifiesByte_setZN`, and the byte wraps modulo 256. -/
theorem memoryStepsReadModifyWrite : Obligations.MemoryStepsReadModifyWrite := by
  refine ⟨fun r hr => ?inc, fun r hr => ?dec⟩
  case inc =>
    fin_cases hr <;> exact ⟨⟨rfl, rfl⟩, modifiesByte_setZN (fun _ => rfl) toNat_byte_add_one⟩
  case dec =>
    fin_cases hr <;> exact ⟨⟨rfl, rfl⟩, modifiesByte_setZN (fun _ => rfl) toNat_byte_sub_one⟩

end Sys2Proof.Machine
end

section
/-! Shifts (44_shift_rotate.md). -/

namespace Sys2Proof.Machine

theorem toNat_shiftLeft (v : Byte) : (shiftLeft v).toNat = v.toNat * 2 % 256 := by
  simp [shiftLeft, Nat.shiftLeft_eq]

theorem toNat_shiftRight (v : Byte) : (shiftRight v).toNat = v.toNat / 2 := by
  simp [shiftRight, Nat.shiftRight_eq_div_pow]

/-- Bit 6 becomes bit 7 of a left shift's result. -/
theorem shiftLeft_getLsbD_seven (v : Byte) : (shiftLeft v).getLsbD 7 = v.getLsbD 6 := by
  simp [shiftLeft]

/-- A right shift fills bit 7 with 0 (R203). -/
theorem shiftRight_getLsbD_seven (v : Byte) : (shiftRight v).getLsbD 7 = false := by
  simp [shiftRight]

/-- After a change of registers alone, the flags of ASL and LSR add C, Z and N to what is changed, and
nothing else. -/
theorem setShiftFlags_keepsAllBut {regs : List RegName} {s t : State} (h : KeepsAllBut regs [] s t)
    (c : Bool) (r : Byte) : KeepsAllBut regs [.c, .z, .n] s (t.setShiftFlags c r) := by
  obtain ⟨ha, hx, hy, hsp, hpc, hrs, hflag, hparams, hobserver, hdraw⟩ := h
  refine ⟨ha, hx, hy, hsp, hpc, hrs, fun f hf => ?_, hparams, hobserver, hdraw⟩
  obtain ⟨hc, hz, hn⟩ : f ≠ .c ∧ f ≠ .z ∧ f ≠ .n := by simpa using hf
  rw [State.setShiftFlags_flag, if_neg hn, if_neg hz, if_neg hc]
  exact hflag f (by simp)

/-- What ASL and LSR on A share: the accumulator becomes `r`, and C, Z and N follow. -/
theorem exec_shift_accumulator {i : Instr} {s : State} {c : Bool} {r : Byte}
    (hexec : exec i s = .next ((s.setA r).setShiftFlags c r)) :
    ∃ t, exec i s = .next t ∧ t.a = r ∧ t.flag .c = c ∧ t.flag .z = (t.a == 0) ∧
      t.flag .n = t.a.getLsbD 7 ∧ KeepsAllBut [.a] [.c, .z, .n] s t ∧ MemoryKept s t :=
  have hframe := setShiftFlags_keepsAllBut (setA_keepsAllBut s r) c r
  ⟨_, hexec, rfl, by simp, by simp, setZN_flag_n _ r, hframe, memoryKept_of_keepsAllBut hframe rfl⟩

/-- What ASL and LSR on memory share: a read-modify-write whose new byte `g v` is the number `n v` with
bit 7 `neg v`, followed by C as the bit `carry v` of the old byte and by Z and N of the new one. -/
theorem modifiesByte_setShiftFlags {i : Instr} {g : Byte → Byte} {n : Byte → Nat}
    {carry neg : Byte → Bool}
    (hexec : ∀ s, exec i s =
      outcome (modifyByte i.entry s (fun _ v => g v) fun t v r => t.setShiftFlags (carry v) r))
    (hg : ∀ v, (g v).toNat = n v) (hneg : ∀ v, (g v).getLsbD 7 = neg v) :
    ModifiesByte i (fun _ v => BitVec.ofNat 8 (n v)) fun s v t =>
      t.flag .c = carry v ∧ t.flag .z = decide (n v = 0) ∧ t.flag .n = neg v ∧
      KeepsAllBut [] [.c, .z, .n] s t := by
  have hbyte (v : Byte) : g v = BitVec.ofNat 8 (n v) := by
    rw [← hg v, BitVec.ofNat_toNat, BitVec.setWidth_eq]
  refine modifiesByte_of hexec (fun _ v => hbyte v) (fun s m v => ?_) fun _ _ _ => ⟨rfl, rfl⟩
  rw [← hbyte v, ← hg v, ← hneg v]
  exact ⟨by simp, setZN_flag_z_toNat _ _, setZN_flag_n _ _,
    setShiftFlags_keepsAllBut (setRam_keepsAllBut s m) _ _⟩

/-- Settles O40: each accumulator row is an instance of `exec_shift_accumulator` and each memory row one of
`modifiesByte_setShiftFlags`, with what the shift makes of the byte's number and of its bit 7. -/
theorem shiftsMoveTheLostBitToCarry : Obligations.ShiftsMoveTheLostBitToCarry := by
  refine ⟨⟨rfl, rfl⟩, ⟨rfl, rfl⟩, fun s => ?aslAcc, fun s => ?lsrAcc, fun r hr => ?aslMem,
    fun r hr => ?lsrMem⟩
  case aslAcc =>
    obtain ⟨t, ht, ha, hrest⟩ := exec_shift_accumulator (i := .aslAcc) (s := s) rfl
    exact ⟨t, ht, ha ▸ toNat_shiftLeft s.a, hrest⟩
  case lsrAcc =>
    obtain ⟨t, ht, ha, hc, hz, hn, hframe, hmem⟩ := exec_shift_accumulator (i := .lsrAcc) (s := s) rfl
    exact ⟨t, ht, ha ▸ toNat_shiftRight s.a, hc, hz, hn.trans (ha ▸ shiftRight_getLsbD_seven s.a),
      hframe, hmem⟩
  case aslMem =>
    fin_cases hr <;> exact ⟨⟨rfl, rfl⟩,
      modifiesByte_setShiftFlags (fun _ => rfl) toNat_shiftLeft shiftLeft_getLsbD_seven⟩
  case lsrMem =>
    fin_cases hr <;> exact ⟨⟨rfl, rfl⟩,
      modifiesByte_setShiftFlags (fun _ => rfl) toNat_shiftRight shiftRight_getLsbD_seven⟩

end Sys2Proof.Machine
end

section
/-! Logic, compare and bit test (45_logic_arith.md). -/

namespace Sys2Proof.Machine

/-- What AND, EOR and ORA share: A becomes `op` of A and the byte read, and SetZN of the same byte
follows (R220 to R222). -/
theorem readsOperand_logic {i : Instr} {op : Byte → Byte → Byte}
    (hexec : ∀ s, exec i s =
      outcome (withOperand i.entry s fun t m => (t.setA (op t.a m)).setZN (op t.a m))) :
    ReadsOperand i fun s m t => t.a = op s.a m ∧ t.flag .z = (op s.a m == 0) ∧
      t.flag .n = (op s.a m).getLsbD 7 ∧ KeepsAllBut [.a] [.z, .n] s t :=
  readsOperand_of hexec
    (fun s _ => ⟨rfl, by simp, setZN_flag_n _ _, setZN_keepsAllBut (setA_keepsAllBut s _) _⟩)
    fun _ _ => ⟨rfl, rfl⟩

/-- Settles O44: every row of a mnemonic is that operation at its own mode, so each is an instance of
`readsOperand_logic`. -/
theorem logicCombinesBitwiseIntoA : Obligations.LogicCombinesBitwiseIntoA := by
  refine ⟨fun r hr => ?and, fun r hr => ?eor, fun r hr => ?ora⟩
  case and =>
    fin_cases hr <;>
      exact ⟨⟨rfl, rfl⟩, readsOperand_logic (op := fun a m => a &&& m) fun _ => rfl⟩
  case eor =>
    fin_cases hr <;>
      exact ⟨⟨rfl, rfl⟩, readsOperand_logic (op := fun a m => a ^^^ m) fun _ => rfl⟩
  case ora =>
    fin_cases hr <;>
      exact ⟨⟨rfl, rfl⟩, readsOperand_logic (op := fun a m => a ||| m) fun _ => rfl⟩

/-- A byte's subtraction, in numbers without a negative intermediate. -/
theorem toNat_byte_sub (r m : Byte) : (r - m).toNat = (r.toNat + 256 - m.toNat) % 256 := by
  rw [BitVec.toNat_sub]
  omega

theorem keepsAllBut_refl (s : State) : KeepsAllBut [] [] s s := by
  simp [KeepsAllBut]

/-- The comparison's Zero flag says that the two bytes are equal (R226). -/
theorem compare_flag_z (s : State) (r m : Byte) : (s.compare r m).flag .z = (r == m) := by
  simp [beq_eq_decide, BitVec.sub_eq_iff_eq_add]

/-- The comparison's Negative flag is bit 7 of the difference modulo 256 (R226). -/
theorem compare_flag_n (s : State) (r m : Byte) :
    (s.compare r m).flag .n = decide (128 ≤ (r.toNat + 256 - m.toNat) % 256) := by
  rw [← toNat_byte_sub]
  exact setZN_flag_n_toNat _ _

/-- A comparison writes C, Z and N, and nothing else: it is the flags of a shift, from the difference. -/
theorem compare_keepsAllBut (s : State) (r m : Byte) :
    KeepsAllBut [] [.c, .z, .n] s (s.compare r m) :=
  setShiftFlags_keepsAllBut (keepsAllBut_refl s) _ (r - m)

/-- What CMP, CPX and CPY share: the byte read is compared with the register `reg` (R226 to R228). -/
theorem readsOperand_compare {i : Instr} {reg : State → Byte}
    (hexec : ∀ s, exec i s = outcome (withOperand i.entry s fun t m => t.compare (reg t) m)) :
    ReadsOperand i fun s m t => t.flag .c = decide (m.toNat ≤ (reg s).toNat) ∧
      t.flag .z = (reg s == m) ∧ t.flag .n = decide (128 ≤ ((reg s).toNat + 256 - m.toNat) % 256) ∧
      KeepsAllBut [] [.c, .z, .n] s t :=
  readsOperand_of hexec
    (fun s m => ⟨by simp, compare_flag_z s _ m, compare_flag_n s _ m, compare_keepsAllBut s _ m⟩)
    fun _ _ => ⟨rfl, rfl⟩

/-- Settles O48: every row of a mnemonic compares its register at its own mode, so each is an instance of
`readsOperand_compare`. -/
theorem comparesSetCarryZeroNegative : Obligations.ComparesSetCarryZeroNegative := by
  refine ⟨fun r hr => ?cmp, fun r hr => ?cpx, fun r hr => ?cpy⟩
  case cmp =>
    fin_cases hr <;> exact ⟨⟨rfl, rfl⟩, readsOperand_compare (reg := State.a) fun _ => rfl⟩
  case cpx =>
    fin_cases hr <;> exact ⟨⟨rfl, rfl⟩, readsOperand_compare (reg := State.x) fun _ => rfl⟩
  case cpy =>
    fin_cases hr <;> exact ⟨⟨rfl, rfl⟩, readsOperand_compare (reg := State.y) fun _ => rfl⟩

/-- BIT's flags are Z, N and V; every register, A among them, and every other flag stay (R229). -/
theorem bitTest_keepsAllBut (s : State) (m : Byte) :
    KeepsAllBut [] [.z, .n, .v] s (s.bitTest m) := by
  simp +contextual [KeepsAllBut]

/-- A row whose meaning is BIT of the byte read. -/
theorem readsOperand_bitTest {i : Instr}
    (hexec : ∀ s, exec i s = outcome (withOperand i.entry s fun t m => t.bitTest m)) :
    ReadsOperand i fun s m t => t.flag .z = (s.a &&& m == 0) ∧ t.flag .n = m.getLsbD 7 ∧
      t.flag .v = m.getLsbD 6 ∧ KeepsAllBut [] [.z, .n, .v] s t :=
  readsOperand_of hexec (fun s m => ⟨by simp, by simp, by simp, bitTest_keepsAllBut s m⟩)
    fun _ _ => ⟨rfl, rfl⟩

/-- Settles O49: both rows are BIT at their own mode. -/
theorem bitTestsMemoryAgainstA : Obligations.BitTestsMemoryAgainstA := by
  intro r hr
  fin_cases hr <;> exact ⟨⟨rfl, rfl⟩, readsOperand_bitTest fun _ => rfl⟩

end Sys2Proof.Machine
end

section
/-! Encoding (30_encoding.md). -/

namespace Sys2Proof

/-- The opcode map has every row at the row's own code (R84, R88). -/
theorem decodeOpcode_code (i : Instr) : decodeOpcode i.entry.code = some i := by cases i <;> rfl

/-- The opcode map has a row at no byte but the row's code: each of the 256 bytes, checked. -/
theorem code_of_decodeOpcode {b : Byte} {i : Instr} (h : decodeOpcode b = some i) :
    i.entry.code = b := by
  have hmap : ∀ b : Byte, (decodeOpcode b).all (fun i => i.entry.code == b) = true := by decide
  simpa [h] using hmap b

/-- Settles O3: the map has each row at its code, and what it has at a byte has that byte as its code. -/
theorem rowIsReachedByItsCodeAlone : Obligations.RowIsReachedByItsCodeAlone := by
  intro i b
  refine ⟨code_of_decodeOpcode, ?_⟩
  rintro rfl
  exact decodeOpcode_code i

/-- Settles O4: the decoder computes on each of the written words. -/
theorem writtenWordsDecode : Obligations.WrittenWordsDecode :=
  ⟨rfl, rfl, rfl, rfl, rfl, rfl, rfl, rfl, rfl, rfl, rfl, rfl⟩

/-- The bytes of a 16-bit operand, put together again, are the operand (R83). -/
theorem wordOfBytes_low_high (v : Word) : wordOfBytes (v.setWidth 8) ((v >>> 8).setWidth 8) = v :=
  Machine.joinBytes_low_high v

/-- Two bytes put together are those two bytes as a 16-bit operand (R83). -/
theorem bytes_wordOfBytes (lo hi : Byte) : (Operand.word (wordOfBytes lo hi)).bytes = [lo, hi] := by
  have hnat : (wordOfBytes lo hi).toNat = lo.toNat + 256 * hi.toNat := Machine.joinBytes_toNat lo hi
  have hlo : (wordOfBytes lo hi).setWidth 8 = lo :=
    BitVec.eq_of_toNat_eq (by rw [BitVec.toNat_setWidth, hnat]; omega)
  have hhi : (wordOfBytes lo hi >>> 8).setWidth 8 = hi :=
    BitVec.eq_of_toNat_eq (by
      rw [BitVec.toNat_setWidth, BitVec.toNat_ushiftRight, hnat, Nat.shiftRight_eq_div_pow]
      omega)
  rw [Operand.bytes, hlo, hhi]

/-- Settles O1: the code selects the row, and each operand's bytes are read back as that operand. -/
theorem encodedInstructionDecodes : Obligations.EncodedInstructionDecodes := by
  rintro ⟨i, operand⟩ rest hwf
  have hsize : i.format.operandSize = operand.size := (beq_iff_eq.1 hwf).symm
  simp only [encode, List.cons_append, decode, decodeOpcode_code, hsize]
  cases operand with
  | none => rfl
  | byte v => rfl
  | word v =>
    show Except.ok (AsmInstr.mk i (.word (wordOfBytes _ _)), rest) = _
    rw [wordOfBytes_low_high]

/-- A decoding that succeeds has read a row's code and then that row's operand bytes. -/
theorem decode_eq_ok {bytes rest : List Byte} {a : AsmInstr} (h : decode bytes = .ok (a, rest)) :
    a.operand.size = a.instr.format.operandSize ∧
      bytes = a.instr.entry.code :: (a.operand.bytes ++ rest) := by
  cases bytes with
  | nil => cases h
  | cons b tail =>
    cases hrow : decodeOpcode b with
    | none => simp [decode, hrow] at h
    | some i =>
      obtain rfl := code_of_decodeOpcode hrow
      simp only [decode, hrow] at h
      split at h
      case h_1 hsize => cases h; exact ⟨hsize.symm, rfl⟩
      case h_2 v _ hsize => cases h; exact ⟨hsize.symm, rfl⟩
      case h_3 lo hi _ hsize => cases h; exact ⟨hsize.symm, by rw [bytes_wordOfBytes]; rfl⟩
      case h_4 => cases h

/-- Settles O2: what the decoder read is a row's code and the bytes of an operand of its layout's size. -/
theorem decodedBytesReencode : Obligations.DecodedBytesReencode := by
  intro bytes rest a h
  obtain ⟨hsize, rfl⟩ := decode_eq_ok h
  exact ⟨by simp [AsmInstr.wf, hsize], rfl⟩

/-- Settles O5: the opcode map is empty at just those bytes, each of the 256 checked, and a byte without a
row has no entry in the table without edits. -/
theorem unassignedOpcodeRaises : Obligations.UnassignedOpcodeRaises := by
  unfold Obligations.UnassignedOpcodeRaises
  intro unassigned
  have hlist : ((List.finRange 256).map BitVec.ofFin).filter (fun b => (decodeOpcode b).isNone) =
      unassigned := by decide
  have hmap (b : Byte) : decodeOpcode b = none ↔ b ∈ unassigned := by
    rw [← hlist, List.mem_filter, Option.isNone_iff_eq_none, and_iff_right]
    exact List.mem_map.2 ⟨b.toFin, List.mem_finRange _, rfl⟩
  refine ⟨hmap, fun s b hrs hedits hb hread => ?_⟩
  exact Machine.missingEntryLeavesTheStateIntact s b hrs hread (.inl ⟨by rw [hedits]; rfl, (hmap b).2 hb⟩)

end Sys2Proof
end

section
/-! The multiplex (40_engine.md R126): which registers and flags a handler writes, said once for all 56
mnemonics, and from it the frames and invariants of every instruction and of every step. -/

namespace Sys2Proof.Machine

/-! The multiplex on the rows of R84. -/

/-- A row's meaning is the handler of its mnemonic on its entry. -/
theorem exec_eq_handle (i : Instr) (s : State) : exec i s = handle i.mnemonic i.entry s := by
  cases i <;> rfl

/-- Settles O15: the entry of a row has its mnemonic's name, so the multiplex runs that handler. -/
theorem multiplexRunsTheRow : Obligations.MultiplexRunsTheRow := fun i s =>
  (executeEntry_of_name rfl).trans (exec_eq_handle i s).symm

/-- No handler reads the cycle count of its entry. -/
theorem handle_cycles (m : Mnemonic) (e : OpcodeEntry) (n : Int) (s : State) :
    handle m { e with cycles := n } s = handle m e s := by
  cases m <;> rfl

/-- Settles O16: the multiplex reads the mnemonic, and no handler reads the cycle count. -/
theorem cycleCountIsReadByNothing : Obligations.CycleCountIsReadByNothing := by
  intro e n s
  unfold executeEntry
  cases hm : Mnemonic.ofName e.mnemonic with
  | none => rfl
  | some m => simpa only [hm] using handle_cycles m e n s

/-! What a change of the state leaves alone. -/

theorem setPc_keepsAllBut (s : State) (v : Word) : KeepsAllBut [.pc] [] s (s.setPc v) := by
  simp [KeepsAllBut]

theorem setRs_keepsAllBut (s : State) (r : RunState) : KeepsAllBut [.rs] [] s (s.setRs r) := by
  simp [KeepsAllBut]

theorem setFlag_keepsAllBut (s : State) (f : Flag) (b : Bool) :
    KeepsAllBut [] [f] s (s.setFlag f b) := by
  simp +contextual [KeepsAllBut]

/-- After a change of registers alone, the flags of ROL and ROR add C, Z and N to what is changed, and
nothing else. -/
theorem setRotateFlags_keepsAllBut {regs : List RegName} {s t : State} (h : KeepsAllBut regs [] s t)
    (form : ShiftForm) (c : Bool) (r : Byte) :
    KeepsAllBut regs [.c, .z, .n] s (t.setRotateFlags form c r) := by
  obtain ⟨ha, hx, hy, hsp, hpc, hrs, hflag, hparams, hobserver, hdraw⟩ := h
  simp only [KeepsAllBut, State.setRotateFlags_a, State.setRotateFlags_x, State.setRotateFlags_y,
    State.setRotateFlags_sp, State.setRotateFlags_pc, State.setRotateFlags_rs,
    State.setRotateFlags_params, State.setRotateFlags_observer, State.setRotateFlags_draw]
  refine ⟨ha, hx, hy, hsp, hpc, hrs, fun f hf => ?_, hparams, hobserver, hdraw⟩
  obtain ⟨hc, hz, hn⟩ : f ≠ .c ∧ f ≠ .z ∧ f ≠ .n := by simpa using hf
  rw [State.setRotateFlags_flag, if_neg (fun h => hz h.1), if_neg hn, if_neg hc]
  exact hflag f (by simp)

/-- The shared adder writes A, and the flags C, V, Z and N (R223). -/
theorem addToA_keepsAllBut (s : State) (m : Byte) :
    KeepsAllBut [.a] [.c, .v, .z, .n] s (s.addToA m) := by
  simp +contextual [KeepsAllBut]

/-- What a handler that completes did to the state: the registers and flags it may have written, and
that work RAM is in canonical form if it was. -/
def Changes (regs : List RegName) (flags : List Flag) (s t : State) : Prop :=
  KeepsAllBut regs flags s t ∧ (MemoryCanonical s → MemoryCanonical t)

section Shapes

variable {regs : List RegName} {flags : List Flag} {e : OpcodeEntry} {s t : State}

/-- With the parameters and the work RAM the canonical form is kept. -/
theorem memoryCanonical_congr (hp : t.params = s.params) (hr : t.ram = s.ram)
    (hs : MemoryCanonical s) : MemoryCanonical t := by
  unfold MemoryCanonical
  rwa [hp, hr]

theorem changes_of_ram_eq (h : KeepsAllBut regs flags s t) (hr : t.ram = s.ram) :
    Changes regs flags s t := by
  refine ⟨h, fun hs => ?_⟩
  obtain ⟨-, -, -, -, -, -, -, hp, -, -⟩ := h
  exact memoryCanonical_congr hp hr hs

theorem withOperand_changes {f : State → Byte → State} (h : withOperand e s f = .ok t)
    (hf : ∀ v, KeepsAllBut regs flags s (f s v)) (hram : ∀ v, (f s v).ram = s.ram) :
    Changes regs flags s t := by
  obtain ⟨v, -, rfl⟩ := withOperand_eq_ok.1 h
  exact changes_of_ram_eq (hf v) (hram v)

theorem storeByte_changes {v : Byte} (h : storeByte e s v = .ok t) : Changes [] [] s t := by
  obtain ⟨ea, -, hw⟩ := storeByte_eq_ok.1 h
  obtain ⟨m, rfl⟩ := busWrite_setRam hw
  exact ⟨setRam_keepsAllBut s m, busWrite_canonical hw⟩

theorem modifyByte_changes {result : State → Byte → Byte} {write : State → Byte → Byte → State}
    (h : modifyByte e s result write = .ok t)
    (hwrite : ∀ m v r, KeepsAllBut [] flags s (write (s.setRam m) v r))
    (hram : ∀ u v r, (write u v r).ram = u.ram) : Changes [] flags s t := by
  obtain ⟨ea, v, u, -, -, hw, rfl⟩ := modifyByte_eq_ok.1 h
  have hu := busWrite_canonical hw
  obtain ⟨m, rfl⟩ := busWrite_setRam hw
  have hk := hwrite m v (result s v)
  refine ⟨hk, fun hs => ?_⟩
  obtain ⟨-, -, -, -, -, -, -, hp, -, -⟩ := hk
  exact memoryCanonical_congr (s := s.setRam m) hp (hram _ _ _) (hu hs)

theorem branch_changes {cond : Bool} (h : branch cond s = .ok t) : Changes [.pc] [] s t := by
  unfold branch at h
  split at h
  · obtain ⟨off, -, hoff⟩ := bind_eq_ok.1 h
    cases hoff
    exact changes_of_ram_eq (setPc_keepsAllBut s _) rfl
  · cases h
    exact changes_of_ram_eq (by simp [KeepsAllBut]) rfl

theorem push_changes {v : Byte} (h : s.push v = .ok t) : Changes [.sp] [] s t := by
  rw [push_eq] at h
  cases h
  exact ⟨by simp [KeepsAllBut], fun hs => ⟨Memory.wf_set_stack hs.1 s.sp v, hs.2⟩⟩

theorem handleJmpAbs_changes (h : handleJmpAbs s = .ok t) : Changes [.pc] [] s t := by
  obtain ⟨target, -, htarget⟩ := bind_eq_ok.1 h
  cases htarget
  exact changes_of_ram_eq (setPc_keepsAllBut s _) rfl

theorem handleJmpInd_changes (h : handleJmpInd s = .ok t) : Changes [.pc] [] s t := by
  obtain ⟨ptr, -, hptr⟩ := bind_eq_ok.1 h
  obtain ⟨target, -, htarget⟩ := bind_eq_ok.1 hptr
  cases htarget
  exact changes_of_ram_eq (setPc_keepsAllBut s _) rfl

theorem handleJsr_changes (h : handleJsr s = .ok t) : Changes [.sp, .pc] [] s t := by
  unfold handleJsr at h
  rw [push16_eq, except_ok_bind] at h
  obtain ⟨target, -, htarget⟩ := bind_eq_ok.1 h
  cases htarget
  exact ⟨by simp [KeepsAllBut],
    fun hs => ⟨Memory.wf_set_stack (Memory.wf_set_stack hs.1 _ _) _ _, hs.2⟩⟩

theorem handleRts_changes (h : handleRts s = .ok t) : Changes [.sp, .pc] [] s t := by
  simp only [handleRts, pop16_eq, except_ok_bind] at h
  cases h
  exact changes_of_ram_eq (by simp [KeepsAllBut]) rfl

theorem handlePla_changes (h : handlePla s = .ok t) : Changes [.a, .sp] [.z, .n] s t := by
  simp only [handlePla, pop_eq, except_ok_bind] at h
  cases h
  exact changes_of_ram_eq (setZN_keepsAllBut (by simp [KeepsAllBut]) _) rfl

end Shapes

/-! Which registers and flags a mnemonic writes. -/

/-- All flags of P. -/
def allFlags : List Flag := [.c, .z, .i, .d, .b, .b2, .v, .n]

theorem mem_allFlags (f : Flag) : f ∈ allFlags := by cases f <;> decide

/-- The registers a handler may write (10_state.md R21 to R23, R30, R32, R33); a shift or rotate has its
form. -/
def writtenRegs (m : Mnemonic) (form : ShiftForm) : List RegName :=
  match m with
  | .lda | .txa | .tya | .and | .eor | .ora | .adc | .sbc => [.a]
  | .asl | .lsr | .rol | .ror =>
    match form with
    | .acc => [.a]
    | .mem => []
  | .ldx | .tax | .tsx | .inx | .dex => [.x]
  | .ldy | .tay | .iny | .dey => [.y]
  | .txs | .pha | .php | .plp => [.sp]
  | .pla => [.a, .sp]
  | .bcc | .bcs | .beq | .bne | .bpl | .bmi | .bvc | .bvs | .jmp => [.pc]
  | .jsr | .rts | .rti => [.sp, .pc]
  | .brk => [.rs]
  | .sta | .stx | .sty | .inc | .dec | .cmp | .cpx | .cpy | .bit
  | .clc | .sec | .cli | .sei | .cld | .sed | .clv | .nop => []

/-- The flags a handler may write (10_state.md R25 to R28, R38, R39). -/
def writtenFlags : Mnemonic → List Flag
  | .lda | .ldx | .ldy | .tax | .tay | .txa | .tya | .tsx | .inx | .iny | .dex | .dey | .inc | .dec
  | .and | .eor | .ora | .pla => [.z, .n]
  | .asl | .lsr | .rol | .ror | .cmp | .cpx | .cpy => [.c, .z, .n]
  | .adc | .sbc => [.c, .v, .z, .n]
  | .bit => [.z, .n, .v]
  | .clc | .sec => [.c]
  | .cli | .sei => [.i]
  | .cld | .sed => [.d]
  | .clv => [.v]
  | .plp | .rti => allFlags
  | .sta | .stx | .sty | .txs | .bcc | .bcs | .beq | .bne | .bpl | .bmi | .bvc | .bvs | .jmp | .jsr
  | .rts | .pha | .php | .nop | .brk => []

/-- A handler that completes writes its registers and its flags and no others, no parameter, and keeps the
memories canonical. -/
theorem handle_changes {m : Mnemonic} {e : OpcodeEntry} {s t : State} (h : handle m e s = .next t) :
    Changes (writtenRegs m (shiftFormOf e.code)) (writtenFlags m) s t := by
  cases m
  case lda | and | eor | ora =>
    exact withOperand_changes (outcome_eq_next.1 h)
      (fun _ => setZN_keepsAllBut (setA_keepsAllBut s _) _) fun _ => rfl
  case ldx =>
    exact withOperand_changes (outcome_eq_next.1 h)
      (fun _ => setZN_keepsAllBut (setX_keepsAllBut s _) _) fun _ => rfl
  case ldy =>
    exact withOperand_changes (outcome_eq_next.1 h)
      (fun _ => setZN_keepsAllBut (setY_keepsAllBut s _) _) fun _ => rfl
  case adc | sbc =>
    exact withOperand_changes (outcome_eq_next.1 h) (fun _ => addToA_keepsAllBut s _) fun _ => rfl
  case cmp | cpx | cpy =>
    exact withOperand_changes (outcome_eq_next.1 h) (fun _ => compare_keepsAllBut s _ _) fun _ => rfl
  case bit =>
    exact withOperand_changes (outcome_eq_next.1 h) (fun _ => bitTest_keepsAllBut s _) fun _ => rfl
  case sta | stx | sty => exact storeByte_changes (outcome_eq_next.1 h)
  case inc | dec =>
    exact modifyByte_changes (outcome_eq_next.1 h)
      (fun m _ _ => setZN_keepsAllBut (setRam_keepsAllBut s m) _) fun _ _ _ => rfl
  case asl | lsr =>
    cases hform : shiftFormOf e.code <;> simp only [handle, hform, outcome_eq_next] at h
    case acc =>
      cases h
      exact changes_of_ram_eq (setShiftFlags_keepsAllBut (setA_keepsAllBut s _) _ _) rfl
    case mem =>
      exact modifyByte_changes h
        (fun m _ _ => setShiftFlags_keepsAllBut (setRam_keepsAllBut s m) _ _) fun _ _ _ => rfl
  case rol | ror =>
    cases hform : shiftFormOf e.code <;> simp only [handle, hform, outcome_eq_next] at h
    case acc =>
      cases h
      exact changes_of_ram_eq (setRotateFlags_keepsAllBut (setA_keepsAllBut s _) _ _ _) (by simp)
    case mem =>
      exact modifyByte_changes h
        (fun m _ _ => setRotateFlags_keepsAllBut (setRam_keepsAllBut s m) _ _ _) (by simp)
  case tax | tsx | inx | dex =>
    cases h
    exact changes_of_ram_eq (setZN_keepsAllBut (setX_keepsAllBut s _) _) rfl
  case tay | iny | dey =>
    cases h
    exact changes_of_ram_eq (setZN_keepsAllBut (setY_keepsAllBut s _) _) rfl
  case txa | tya =>
    cases h
    exact changes_of_ram_eq (setZN_keepsAllBut (setA_keepsAllBut s _) _) rfl
  case txs =>
    cases h
    exact changes_of_ram_eq (setSp_keepsAllBut s _) rfl
  case bcc | bcs | beq | bne | bpl | bmi | bvc | bvs => exact branch_changes (outcome_eq_next.1 h)
  case jmp =>
    simp only [handle] at h
    split at h
    · exact handleJmpAbs_changes (outcome_eq_next.1 h)
    · split at h
      · exact handleJmpInd_changes (outcome_eq_next.1 h)
      · cases h
  case jsr => exact handleJsr_changes (outcome_eq_next.1 h)
  case rts => exact handleRts_changes (outcome_eq_next.1 h)
  case pha | php => exact push_changes (outcome_eq_next.1 h)
  case pla => exact handlePla_changes (outcome_eq_next.1 h)
  case plp =>
    simp only [handle, handlePlp, pop_eq, except_ok_bind, outcome_ok] at h
    cases h
    exact changes_of_ram_eq (by simp [KeepsAllBut, writtenRegs, writtenFlags, mem_allFlags]) rfl
  case rti =>
    simp only [handle, handleRti, pop_eq, pop16_eq, except_ok_bind, outcome_ok] at h
    cases h
    exact changes_of_ram_eq (by simp [KeepsAllBut, writtenRegs, writtenFlags, mem_allFlags]) rfl
  case clc | sec | cli | sei | cld | sed | clv =>
    cases h
    exact changes_of_ram_eq (setFlag_keepsAllBut s _ _) rfl
  case nop =>
    cases h
    exact changes_of_ram_eq (keepsAllBut_refl s) rfl
  case brk =>
    simp only [handle] at h
    split at h
    · cases h
      exact changes_of_ram_eq (setRs_keepsAllBut s _) rfl
    · cases h

/-- `handle_changes` on a row of R84. -/
theorem exec_changes {i : Instr} {s t : State} (h : exec i s = .next t) :
    Changes (writtenRegs i.mnemonic (shiftFormOf i.entry.code)) (writtenFlags i.mnemonic) s t :=
  handle_changes (exec_eq_handle i s ▸ h)

end Sys2Proof.Machine
end

section
/-! Frames and invariants of the whole machine (10_state.md), from what a handler writes. -/

namespace Sys2Proof.Machine

/-! The registers and flags of the rows. -/

/-- The rows that write A: nine mnemonics, and the accumulator forms of the shifts and rotates (R21). -/
theorem a_writers (i : Instr) (h : .a ∈ writtenRegs i.mnemonic (shiftFormOf i.entry.code)) :
    i.mnemonic ∈ [Mnemonic.lda, .txa, .tya, .pla, .and, .eor, .ora, .adc, .sbc] ∨
      i ∈ [Instr.aslAcc, .lsrAcc, .rolAcc, .rorAcc] := by
  revert h
  cases i <;> decide

/-- Settles O28: a register in no handler's list is kept, and each list of writers has every mnemonic whose
handler's list has the register. -/
theorem registersChangeOnlyByTheirWriters : Obligations.RegistersChangeOnlyByTheirWriters := by
  intro i s t h
  obtain ⟨⟨ha, hx, hy, hsp, hpc, hrs, -⟩, -⟩ := exec_changes h
  refine ⟨fun hm hi => ha fun hmem => (a_writers i hmem).elim hm hi, fun hm => hx (mt ?_ hm),
    fun hm => hy (mt ?_ hm), fun hm => hsp (mt ?_ hm), fun hm => hpc (mt ?_ hm), fun hm => hrs (mt ?_ hm)⟩
  all_goals
    generalize i.mnemonic = m, shiftFormOf i.entry.code = form
    cases form <;> cases m <;> decide

/-- Settles O29: a flag in no handler's list is kept, and each list of writers has every mnemonic whose
handler's list has the flag. -/
theorem flagsChangeOnlyByTheirWriters : Obligations.FlagsChangeOnlyByTheirWriters := by
  intro i s t h
  obtain ⟨⟨-, -, -, -, -, -, hflag, -⟩, -⟩ := exec_changes h
  refine ⟨fun hm => hflag _ (mt ?_ hm), fun hm => ⟨hflag _ (mt ?_ hm), hflag _ (mt ?_ hm)⟩,
    fun hm => hflag _ (mt ?_ hm), fun hm => hflag _ (mt ?_ hm), fun hm => hflag _ (mt ?_ hm),
    fun hm => ⟨hflag _ (mt ?_ hm), hflag _ (mt ?_ hm)⟩⟩
  all_goals
    generalize i.mnemonic = m
    cases m <;> decide

/-! The invariant. -/

/-- A pulled status byte has Break at 0 and Break2 at 1 (47_stack_flag_system.md R283). -/
theorem statusBitsFixed_pulled {t : State} {v : Byte} (h : t.p = pulledStatus v) : StatusBitsFixed t := by
  simp [StatusBitsFixed, State.flag, h, getFlag_pulledStatus]

/-- No handler but PLP's and RTI's writes Break or Break2, and those two write them as pulled. -/
theorem handle_statusBitsFixed {m : Mnemonic} {e : OpcodeEntry} {s t : State}
    (h : handle m e s = .next t) (hs : StatusBitsFixed s) : StatusBitsFixed t := by
  obtain ⟨⟨-, -, -, -, -, -, hflag, -⟩, -⟩ := handle_changes h
  by_cases hm : m = .plp ∨ m = .rti
  · rcases hm with rfl | rfl
    · simp only [handle, handlePlp, pop_eq, except_ok_bind, outcome_ok] at h
      cases h
      exact statusBitsFixed_pulled rfl
    · simp only [handle, handleRti, pop_eq, pop16_eq, except_ok_bind, outcome_ok] at h
      cases h
      exact statusBitsFixed_pulled rfl
  · have hkept : ∀ f ∈ [Flag.b, .b2], f ∉ writtenFlags m := by
      cases m <;> simp_all [writtenFlags]
    rw [StatusBitsFixed, hflag _ (hkept .b (by simp)), hflag _ (hkept .b2 (by simp))]
    exact hs

/-- A row in the opcode table is the decoder's row at that byte. -/
theorem decodeOpcode_of_tableCell {edits : List (Byte × Option OpcodeEntry)} {b : Byte} {i : Instr}
    (h : tableCell edits b = .row i) : decodeOpcode b = some i := by
  unfold tableCell at h
  split at h
  · cases h
  · cases h
  · split at h
    · cases h; assumption
    · cases h

/-- An entry of another table stands at its byte (30_encoding.md R81). -/
theorem code_of_tableCell {edits : List (Byte × Option OpcodeEntry)} {b : Byte} {e : OpcodeEntry}
    (h : tableCell edits b = .other e) : e.code = b := by
  unfold tableCell at h
  split at h
  · cases h; rfl
  · cases h
  · split at h <;> cases h

theorem setRs_self {s : State} {r : RunState} (h : s.rs = r) : s.setRs r = s := by
  subst h
  rfl

/-- From Running and from Halted the step is the engine's, from the state Running. -/
theorem step_of_not_faulted {s : State} (h : s.rs = .running ∨ s.rs = .halted) :
    step s = engineStep (s.setRs .running) := by
  rcases h with h | h
  · rw [step_running h, setRs_self h]
  · exact step_halted h

/-- A step that completes is from Running or from Halted. -/
theorem running_or_halted_of_step {s t : State} (h : step s = .next t) :
    s.rs = .running ∨ s.rs = .halted := by
  cases hrs : s.rs with
  | running => exact .inl rfl
  | halted => exact .inr rfl
  | faulted f => rw [step_faulted hrs] at h; cases h

/-- An iteration of the loop that completes ran a handler on an entry that stands at the byte fetched. -/
theorem engineStep_next {s t : State} (h : engineStep s = .next t) :
    ∃ b m e, s.busRead s.pc = .ok b ∧ e.code = b ∧
      finishStep e s.atOperand (handle m e s.atOperand) = .next t := by
  cases hread : s.busRead s.pc with
  | error f => rw [engineStep_fetch_error hread] at h; cases h
  | ok b =>
    cases hcell : tableCell s.params.tableEdits b with
    | absent => rw [engineStep_absent hread hcell] at h; cases h
    | row i =>
      rw [engineStep_row hread hcell, exec_eq_handle] at h
      exact ⟨b, i.mnemonic, i.entry, rfl, code_of_decodeOpcode (decodeOpcode_of_tableCell hcell), h⟩
    | other e =>
      simp only [engineStep, hread, hcell, executeEntry] at h
      cases hm : Mnemonic.ofName e.mnemonic with
      | none => rw [hm] at h; cases h
      | some m => rw [hm] at h; exact ⟨b, m, e, rfl, code_of_tableCell hcell, h⟩

/-- What a step that completes did: a handler ran with PC past the opcode byte, on an entry that stands at
that byte; then the step ended with the halt, or with a new PC, queue and work RAM. -/
theorem step_next_cases {s t : State} (h : step s = .next t) :
    ∃ b m e u, s.busRead s.pc = .ok b ∧ e.code = b ∧
      handle m e (s.setRs .running).atOperand = .next u ∧
      ((u.rs = .halted ∧ t = u) ∨
        (u.rs ≠ .halted ∧ (∃ pc q r, t = ((u.setPc pc).setObserver q).setRam r) ∧
          (MemoryCanonical u → MemoryCanonical t))) := by
  rw [step_of_not_faulted (running_or_halted_of_step h)] at h
  obtain ⟨b, m, e, hread, hcode, hfinish⟩ := engineStep_next h
  obtain ⟨u, hu, hend⟩ := finishStep_cases hfinish
  exact ⟨b, m, e, u, hread, hcode, hu, hend⟩

/-- Settles O25: a handler keeps the status bits and the canonical memories, and the end of the step writes
no flag and keeps the memories canonical. -/
theorem stepKeepsTheInvariant : Obligations.StepKeepsTheInvariant := by
  rintro s t ⟨hbits, hmem⟩ h
  obtain ⟨b, m, e, u, -, -, hu, hend⟩ := step_next_cases h
  have hbitsU : StatusBitsFixed u := handle_statusBitsFixed hu hbits
  have hmemU : MemoryCanonical u := (handle_changes hu).2 hmem
  rcases hend with ⟨-, rfl⟩ | ⟨-, ⟨pc, q, r, rfl⟩, hcanonical⟩
  · exact ⟨hbitsU, hmemU⟩
  · exact ⟨hbitsU, hcanonical hmemU⟩

/-- Settles O26: the reset state's P is 0x22 and its memories are empty listings. -/
theorem resetHasTheInvariant : Obligations.ResetHasTheInvariant := ⟨⟨rfl, rfl⟩, rfl, rfl⟩

/-- Settles O27: neither a handler nor the end of a step writes a parameter. -/
theorem stepKeepsTheCartridge : Obligations.StepKeepsTheCartridge := by
  intro s t h
  obtain ⟨b, m, e, u, -, -, hu, hend⟩ := step_next_cases h
  obtain ⟨⟨-, -, -, -, -, -, -, hparams, -, -⟩, -⟩ := handle_changes hu
  rcases hend with ⟨-, rfl⟩ | ⟨-, ⟨pc, q, r, rfl⟩, -⟩ <;> exact hparams

end Sys2Proof.Machine
end

section
/-! The bus (20_memory.md) and the resolver (40_engine.md section 3), as arithmetic. -/

namespace Sys2Proof.Machine

/-! Bytes and addresses as numbers. -/

/-- The next address, modulo 65536. -/
theorem add_one_eq_ofNat (addr : Word) : addr + 1 = BitVec.ofNat 16 ((addr.toNat + 1) % 65536) :=
  BitVec.eq_of_toNat_eq (by simp [BitVec.toNat_add])

theorem joinBytes_eq_ofNat (lo hi : Byte) :
    joinBytes lo hi = BitVec.ofNat 16 (lo.toNat + 256 * hi.toNat) := by
  rw [← joinBytes_toNat, BitVec.ofNat_toNat, BitVec.setWidth_eq]

theorem lowByte_eq_ofNat (v : Word) : lowByte v = BitVec.ofNat 8 (v.toNat % 256) :=
  BitVec.eq_of_toNat_eq (by simp [lowByte])

theorem highByte_eq_ofNat (v : Word) : highByte v = BitVec.ofNat 8 (v.toNat / 256) :=
  BitVec.eq_of_toNat_eq (by simp [highByte, Nat.shiftRight_eq_div_pow])

theorem zext16_eq_ofNat (v : Byte) : zext16 v = BitVec.ofNat 16 v.toNat := by
  rw [← zext16_toNat, BitVec.ofNat_toNat, BitVec.setWidth_eq]

/-- A sum of bytes in page 0 wraps modulo 256. -/
theorem zext16_add_eq_ofNat (v w : Byte) :
    zext16 (v + w) = BitVec.ofNat 16 ((v.toNat + w.toNat) % 256) := by
  rw [zext16_eq_ofNat, BitVec.toNat_add]

/-- A 16-bit base with a byte index wraps modulo 65536. -/
theorem joinBytes_add_zext16 (lo hi index : Byte) :
    joinBytes lo hi + zext16 index =
      BitVec.ofNat 16 ((lo.toNat + 256 * hi.toNat + index.toNat) % 65536) :=
  BitVec.eq_of_toNat_eq (by
    rw [BitVec.toNat_add, joinBytes_toNat, zext16_toNat, BitVec.toNat_ofNat, Nat.mod_mod])

/-! The bus. -/

/-- Settles O20: each range of addresses is a region, and each region reads its own storage. -/
theorem busReadByRegion : Obligations.BusReadByRegion := by
  intro s addr
  refine ⟨fun h => ?ram, fun h1 h2 => ?video, fun h1 h2 => ?unmapped,
    fun h => ⟨fun hk => ?k16, fun hk => ?k32⟩⟩
  case ram => rw [busRead_ram (region_eq_ram.2 h), ramIndex_eq_mod]
  case video => exact busRead_video (region_eq_video.2 ⟨h1, h2⟩) s
  case unmapped => exact busRead_unmapped (region_eq_unmapped.2 ⟨h1, h2⟩) s
  case k16 => rw [busRead_prg (region_eq_prg.2 h), hk]; rfl
  case k32 => rw [busRead_prg (region_eq_prg.2 h), hk]; rfl

/-- Settles O21: each range of addresses is a region, and each region takes a write in its own way. -/
theorem busWriteByRegion : Obligations.BusWriteByRegion := by
  intro s addr v
  refine ⟨fun h => ?ram, fun h1 h2 => ?video, fun h1 h2 => ?unmapped, fun h => ?prg⟩
  case ram => rw [busWrite_ram (region_eq_ram.2 h), ramIndex_eq_mod]; rfl
  case video => exact busWrite_video (region_eq_video.2 ⟨h1, h2⟩) s v
  case unmapped => exact busWrite_unmapped (region_eq_unmapped.2 ⟨h1, h2⟩) s v
  case prg => exact busWrite_prg (region_eq_prg.2 h) s v

/-- Two addresses name one byte of work RAM when both are below 0x2000 and agree modulo 0x800 (R54). -/
theorem sameRamByte_iff {addr addr' : Word} :
    sameRamByte addr addr' = true ↔
      addr.toNat ≤ 0x1FFF ∧ addr'.toNat ≤ 0x1FFF ∧ addr.toNat % 0x800 = addr'.toNat % 0x800 := by
  simp only [sameRamByte, Bool.and_eq_true, beq_iff_eq, region_eq_ram, ramIndex_eq_mod, and_assoc]

/-- Settles O23: after a bus write every address of its byte reads as the byte written, and every other
address reads as before. -/
theorem readReturnsTheByteWritten : Obligations.ReadReturnsTheByteWritten := by
  intro s t addr v hs hw
  obtain ⟨hholds, hkept⟩ := busWrite_memory hw hs
  refine ⟨busWrite_canonical hw hs, fun addr' => ?_⟩
  split
  case isTrue hsame => exact hholds addr' (sameRamByte_iff.2 hsame)
  case isFalse hother => exact hkept addr' (Bool.eq_false_of_not_eq_true (mt sameRamByte_iff.1 hother))

/-- Settles O24: a 16-bit access is its two byte accesses in a chain, which ends at the first error. -/
theorem sixteenBitAccessIsTwoBytes : Obligations.SixteenBitAccessIsTwoBytes := by
  intro s addr
  rw [← add_one_eq_ofNat]
  refine ⟨fun lo hi h1 h2 => ?_, fun f h => ?_, fun lo f h1 h2 => ?_, fun v => ?_⟩
  · exact read16_eq_ok.2 ⟨lo, hi, h1, h2, (joinBytes_eq_ofNat lo hi).symm⟩
  · simp only [State.read16, h, except_error_bind]
  · simp only [State.read16, h1, h2, except_ok_bind, except_error_bind]
  · rw [← lowByte_eq_ofNat, ← highByte_eq_ofNat]
    refine ⟨fun t u h1 h2 => ?_, fun f h => ?_, fun t f h1 h2 => ?_⟩
    · rw [State.write16, h1, except_ok_bind, h2]
    · rw [State.write16, h, except_error_bind]
    · rw [State.write16, h1, except_ok_bind, h2]

/-! The resolver. -/

/-- Settles O17: in each mode the resolver's 8-bit and 16-bit sums are those numbers modulo 256 and 65536. -/
theorem resolverComputesEveryMode : Obligations.ResolverComputesEveryMode := by
  intro e s page0
  have hpointer (v w : Byte) : s.zeroPagePointer (v + w) =
      .ok (BitVec.ofNat 16 (page0 (v.toNat + w.toNat) + 256 * page0 (v.toNat + w.toNat + 1))) := by
    rw [zeroPagePointer_eq, joinBytes_eq_ofNat]
    simp [page0, BitVec.toNat_add]
  have hindirect (zp : Byte) : s.zeroPagePointer zp =
      .ok (joinBytes (Memory.get s.ram (zp.toNat % 256)) (Memory.get s.ram ((zp.toNat + 1) % 256))) := by
    rw [zeroPagePointer_eq, toNat_byte_add_one, Nat.mod_eq_of_lt zp.isLt]
  refine ⟨fun hm => by simp [effectiveAddress, hm], fun zp hzp => ?_, fun lo hi hlo hhi => ?_⟩
  · refine ⟨fun hm => ?_, fun hm => ?_, fun hm => ?_, fun hm => ?_, fun hm => ?_⟩ <;>
      simp only [effectiveAddress, hm, hzp, except_ok_bind]
    · rw [zext16_eq_ofNat]
    · rw [zext16_add_eq_ofNat]
    · rw [zext16_add_eq_ofNat]
    · exact hpointer zp s.x
    · rw [hindirect, except_ok_bind, joinBytes_add_zext16]
  · have hread : s.read16 s.pc = .ok (joinBytes lo hi) := read16_eq_ok.2 ⟨lo, hi, hlo, hhi, rfl⟩
    refine ⟨fun hm => ?_, fun hm => ?_, fun hm => ?_⟩ <;>
      simp only [effectiveAddress, hm, hread, except_ok_bind]
    · rw [joinBytes_eq_ofNat]
    · rw [joinBytes_add_zext16]
    · rw [joinBytes_add_zext16]

/-- A bus read raises exactly in the video window, with the address read (R313). -/
theorem busRead_error_iff {s : State} {addr : Word} {f : Fault} :
    s.busRead addr = .error f ↔ InVideoWindow addr ∧ f = .unimplementedSubsystem addr .read := by
  refine ⟨busRead_error, ?_⟩
  rintro ⟨hv, rfl⟩
  exact busRead_video (region_eq_video.2 hv) s

/-- Outside the video window a bus read gives a byte. -/
theorem busRead_ok_of_not_video {addr : Word} (h : ¬ InVideoWindow addr) (s : State) :
    ∃ v, s.busRead addr = .ok v := by
  cases hread : s.busRead addr with
  | ok v => exact ⟨v, rfl⟩
  | error f => exact absurd (busRead_error hread).1 h

/-- A 16-bit read raises exactly at the first of its two bytes that lies in the video window. -/
theorem read16_error_iff {s : State} {addr : Word} {f : Fault} :
    s.read16 addr = .error f ↔
      (InVideoWindow addr ∧ f = .unimplementedSubsystem addr .read) ∨
        (¬ InVideoWindow addr ∧ InVideoWindow (addr + 1) ∧
          f = .unimplementedSubsystem (addr + 1) .read) := by
  refine ⟨read16_error, ?_⟩
  rintro (h | ⟨hfirst, hsecond⟩)
  · rw [State.read16, busRead_error_iff.2 h, except_error_bind]
  · obtain ⟨lo, hlo⟩ := busRead_ok_of_not_video hfirst s
    rw [State.read16, hlo, except_ok_bind, busRead_error_iff.2 hsecond, except_error_bind]

/-- Settles O19: Immediate reads nothing, the modes with one operand byte raise as its read does, and the
absolute modes as their 16-bit read does; what follows the operand bytes does not raise. -/
theorem resolverRaisesOnlyForOperandBytes : Obligations.ResolverRaisesOnlyForOperandBytes := by
  intro e s f hmode
  cases hm : e.mode
  case noneAddressing => exact absurd hm hmode
  case immediate => simp [effectiveAddress, hm]
  case zeroPage | zeroPageX | zeroPageY | indirectX | indirectY =>
    simp [effectiveAddress, hm, bind_eq_error, busRead_error_iff]
  case absolute | absoluteX | absoluteY =>
    simp [effectiveAddress, hm, bind_eq_error, read16_error_iff]

end Sys2Proof.Machine
end

section
/-! Errors (60_exceptions.md): what a handler and a step can raise, and the end of a run. -/

namespace Sys2Proof.Machine

/-! The errors of handlers. -/

/-- An error of the bus: of the video window, or a write to PRG-ROM (R312, R313). -/
def BusFault (f : Fault) : Prop :=
  (∃ addr access, InVideoWindow addr ∧ f = .unimplementedSubsystem addr access) ∨
    (∃ addr v, InPrgWindow addr ∧ f = .illegalWrite addr v)

section Shapes

variable {e : OpcodeEntry} {s : State} {f : Fault}

theorem busRead_busFault {addr : Word} (h : s.busRead addr = .error f) : BusFault f :=
  .inl ⟨addr, .read, busRead_error h⟩

theorem busWrite_busFault {addr : Word} {v : Byte} (h : s.busWrite addr v = .error f) : BusFault f := by
  rcases busWrite_error h with h | h
  · exact .inl ⟨addr, .write, h⟩
  · exact .inr ⟨addr, v, h⟩

theorem read16_busFault {addr : Word} (h : s.read16 addr = .error f) : BusFault f := by
  rcases read16_error h with h | ⟨-, h⟩
  · exact .inl ⟨addr, .read, h⟩
  · exact .inl ⟨addr + 1, .read, h⟩

theorem effectiveAddress_busFault (hm : e.mode ≠ .noneAddressing) (h : effectiveAddress e s = .error f) :
    BusFault f := by
  rcases effectiveAddress_error hm h with h | ⟨-, h⟩
  · exact busRead_busFault h
  · exact read16_busFault h

theorem withOperand_busFault {g : State → Byte → State} (hm : e.mode ≠ .noneAddressing)
    (h : withOperand e s g = .error f) : BusFault f := by
  rcases bind_eq_error.1 h with h | ⟨v, -, h⟩
  · rcases bind_eq_error.1 h with h | ⟨ea, -, h⟩
    · exact effectiveAddress_busFault hm h
    · exact busRead_busFault h
  · cases h

theorem storeByte_busFault {v : Byte} (hm : e.mode ≠ .noneAddressing)
    (h : storeByte e s v = .error f) : BusFault f := by
  rcases bind_eq_error.1 h with h | ⟨ea, -, h⟩
  · exact effectiveAddress_busFault hm h
  · exact busWrite_busFault h

theorem modifyByte_busFault {result : State → Byte → Byte} {write : State → Byte → Byte → State}
    (hm : e.mode ≠ .noneAddressing) (h : modifyByte e s result write = .error f) : BusFault f := by
  rcases bind_eq_error.1 h with h | ⟨ea, -, h⟩
  · exact effectiveAddress_busFault hm h
  · rcases bind_eq_error.1 h with h | ⟨v, -, h⟩
    · exact busRead_busFault h
    · rcases bind_eq_error.1 h with h | ⟨t, -, h⟩
      · exact busWrite_busFault h
      · cases h

theorem branch_busFault {cond : Bool} (h : branch cond s = .error f) : BusFault f := by
  unfold branch at h
  split at h
  · rcases bind_eq_error.1 h with h | ⟨off, -, h⟩
    · exact busRead_busFault h
    · cases h
  · cases h

theorem handleJmpAbs_busFault (h : handleJmpAbs s = .error f) : BusFault f := by
  rcases bind_eq_error.1 h with h | ⟨target, -, h⟩
  · exact read16_busFault h
  · cases h

theorem handleJmpInd_busFault (h : handleJmpInd s = .error f) : BusFault f := by
  rcases bind_eq_error.1 h with h | ⟨ptr, -, h⟩
  · exact read16_busFault h
  · rcases bind_eq_error.1 h with h | ⟨target, -, h⟩
    · exact read16_busFault h
    · cases h

theorem handleJsr_busFault (h : handleJsr s = .error f) : BusFault f := by
  rw [handleJsr, push16_eq, except_ok_bind] at h
  rcases bind_eq_error.1 h with h | ⟨target, -, h⟩
  · exact read16_busFault h
  · cases h

theorem busWrites_busFault {ws : List (Word × Byte)} (h : s.busWrites ws = .error f) : BusFault f := by
  induction ws generalizing s with
  | nil => cases h
  | cons w ws ih =>
    rcases bind_eq_error.1 h with h | ⟨t, -, h⟩
    · exact busWrite_busFault h
    · exact ih h

theorem observe_busFault (h : observe s = .error f) : BusFault f := by
  unfold observe at h
  split at h
  · cases h
  · exact busWrites_busFault h

end Shapes

/-- Whether a handler asks the resolver for an effective address (R124); a shift or rotate has its form. -/
def resolves (m : Mnemonic) (form : ShiftForm) : Bool :=
  match m with
  | .lda | .ldx | .ldy | .sta | .stx | .sty | .inc | .dec | .and | .eor | .ora | .adc | .sbc
  | .cmp | .cpx | .cpy | .bit => true
  | .asl | .lsr | .rol | .ror => form == .mem
  | .tax | .tay | .txa | .tya | .tsx | .txs | .inx | .iny | .dex | .dey
  | .bcc | .bcs | .beq | .bne | .bpl | .bmi | .bvc | .bvs | .jmp | .jsr | .rts
  | .pha | .pla | .php | .plp | .clc | .sec | .cli | .sei | .cld | .sed | .clv | .rti | .nop | .brk =>
    false

/-- A handler that is not asked to resolve NoneAddressing raises errors of the bus and no others. -/
theorem handle_busFault {m : Mnemonic} {e : OpcodeEntry} {s : State} {f : Fault}
    (hmode : resolves m (shiftFormOf e.code) = true → e.mode ≠ .noneAddressing)
    (h : handle m e s = .fault f) : BusFault f := by
  cases m
  case lda | ldx | ldy | and | eor | ora | adc | sbc | cmp | cpx | cpy | bit =>
    exact withOperand_busFault (hmode rfl) (outcome_eq_fault.1 h)
  case sta | stx | sty => exact storeByte_busFault (hmode rfl) (outcome_eq_fault.1 h)
  case inc | dec => exact modifyByte_busFault (hmode rfl) (outcome_eq_fault.1 h)
  case asl | lsr | rol | ror =>
    cases hform : shiftFormOf e.code <;> simp only [handle, hform, outcome_eq_fault] at h hmode
    case acc => cases h
    case mem => exact modifyByte_busFault (hmode rfl) h
  case bcc | bcs | beq | bne | bpl | bmi | bvc | bvs => exact branch_busFault (outcome_eq_fault.1 h)
  case jmp =>
    simp only [handle] at h
    split at h
    · exact handleJmpAbs_busFault (outcome_eq_fault.1 h)
    · split at h
      · exact handleJmpInd_busFault (outcome_eq_fault.1 h)
      · cases h
  case jsr => exact handleJsr_busFault (outcome_eq_fault.1 h)
  case pha | php => cases (push_eq s _).symm.trans (outcome_eq_fault.1 h)
  case rts => simp [handle, handleRts, pop16_eq] at h
  case pla => simp [handle, handlePla] at h
  case plp => simp [handle, handlePlp] at h
  case rti => simp [handle, handleRti, pop16_eq] at h
  case brk =>
    simp only [handle] at h
    split at h <;> cases h
  case tax | tay | txa | tya | tsx | txs | inx | iny | dex | dey | clc | sec | cli | sei | cld | sed
      | clv | nop =>
    cases h

theorem withOperand_error {e : OpcodeEntry} {s : State} {f : Fault} (h : effectiveAddress e s = .error f)
    (g : State → Byte → State) : withOperand e s g = .error f := by
  rw [withOperand, operandByte, h, except_error_bind, except_error_bind]

theorem storeByte_error {e : OpcodeEntry} {s : State} {f : Fault} (h : effectiveAddress e s = .error f)
    (v : Byte) : storeByte e s v = .error f := by
  rw [storeByte, h, except_error_bind]

theorem modifyByte_error {e : OpcodeEntry} {s : State} {f : Fault} (h : effectiveAddress e s = .error f)
    (result : State → Byte → Byte) (write : State → Byte → Byte → State) :
    modifyByte e s result write = .error f := by
  rw [modifyByte, h, except_error_bind]

/-- A handler that asks the resolver raises what the resolver raises. -/
theorem handle_of_resolver_error {m : Mnemonic} {e : OpcodeEntry} {s : State} {f : Fault}
    (hres : resolves m (shiftFormOf e.code) = true) (h : effectiveAddress e s = .error f) :
    handle m e s = .fault f := by
  cases m
  case lda | ldx | ldy | and | eor | ora | adc | sbc | cmp | cpx | cpy | bit =>
    exact congrArg outcome (withOperand_error h _)
  case sta | stx | sty => exact congrArg outcome (storeByte_error h _)
  case inc | dec => exact congrArg outcome (modifyByte_error h _ _)
  case asl | lsr | rol | ror =>
    have hform : shiftFormOf e.code = .mem := beq_iff_eq.1 hres
    simp only [handle, hform]
    exact congrArg outcome (modifyByte_error h _ _)
  all_goals cases hres

/-! The errors of the rows of R84. -/

/-- No row asks for the resolver with NoneAddressing (R124). -/
theorem row_mode_ne_none (i : Instr) (h : resolves i.mnemonic (shiftFormOf i.entry.code) = true) :
    i.entry.mode ≠ .noneAddressing := by
  revert h
  cases i <;> decide

theorem exec_busFault {i : Instr} {s : State} {f : Fault} (h : exec i s = .fault f) : BusFault f :=
  handle_busFault (row_mode_ne_none i) (exec_eq_handle i s ▸ h)

/-- The multiplex has a handler for every row: the JMP rows stand at JMP's two codes, and BRK at 0x00. -/
theorem exec_ne_refused (i : Instr) (s : State) (r : Refusal) : exec i s ≠ .refused r := by
  have hrow : ¬ ((i.mnemonic = .jmp ∧ i.entry.code ≠ 0x4C ∧ i.entry.code ≠ 0x6C) ∨
      (i.mnemonic = .brk ∧ i.entry.code ≠ 0x00)) := by cases i <;> decide
  intro h
  rw [exec_eq_handle] at h
  exact hrow (handle_refused h).2

/-- R201's test of the low nibble, as a number. -/
theorem shiftFormOf_eq_mem {b : Byte} (h : b.toNat % 16 ≠ 10) : shiftFormOf b = .mem := by
  have hnibble : (b &&& 0x0F).toNat = b.toNat % 16 := Nat.and_two_pow_sub_one_eq_mod b.toNat 4
  refine if_neg fun heq => h ?_
  rw [← hnibble, heq]
  rfl

/-- An entry of another table whose mnemonic is one of the 56 runs that mnemonic's handler. -/
theorem engineStep_named {s : State} {b : Byte} {e : OpcodeEntry} {m : Mnemonic}
    (hread : s.busRead s.pc = .ok b) (hedit : s.params.tableEdits.lookup b = some (some e))
    (hname : e.mnemonic = m.name) :
    engineStep s =
      finishStep { e with code := b } s.atOperand (handle m { e with code := b } s.atOperand) := by
  rw [engineStep_other hread hedit, executeEntry_of_name (e := { e with code := b }) hname]

/-- Settles O18: the resolver raises at NoneAddressing; a row's errors are of the bus; and a resolving
handler raises what the resolver does, with the byte its entry stands at. -/
theorem noneAddressingIsUnsupported : Obligations.NoneAddressingIsUnsupported := by
  have hraise (e : OpcodeEntry) (s : State) (hmode : e.mode = .noneAddressing) :
      effectiveAddress e s = .error (.unsupportedAddressingMode e.code .noneAddressing) := by
    rw [effectiveAddress, hmode, raise]
  refine ⟨hraise, fun i s op m h => ?_, fun s b e m hrs hread hedit hname hmode hm => ?_⟩
  · simpa [BusFault] using exec_busFault h
  · have hres : resolves m (shiftFormOf b) = true := by
      rcases hm with hm | ⟨hm, hnibble⟩
      · fin_cases hm <;> rfl
      · rw [shiftFormOf_eq_mem hnibble]
        fin_cases hm <;> rfl
    rw [step_running hrs, engineStep_named hread hedit hname,
      handle_of_resolver_error hres (hraise { e with code := b } _ hmode), finishStep]

/-- What the end of a step can raise is an error of `Execute`, or one of the observer's writes. -/
theorem finishStep_busFault {e : OpcodeEntry} {before : State} {o : Host.Outcome State Fault Refusal}
    {f : Fault} (ho : o = .fault f → BusFault f) (h : finishStep e before o = .fault f) : BusFault f := by
  cases o with
  | next t =>
    simp only [finishStep] at h
    split at h
    · cases h
    · exact observe_busFault (outcome_eq_fault.1 h)
  | fault g => cases h; exact ho rfl
  | refused r => cases h

theorem finishStep_refused {e : OpcodeEntry} {before : State} {o : Host.Outcome State Fault Refusal}
    {r : Refusal} (h : finishStep e before o = .refused r) : o = .refused r := by
  cases o with
  | next t =>
    simp only [finishStep] at h
    split at h
    · cases h
    · exact absurd h (outcome_ne_refused _ r)
  | fault g => cases h
  | refused q => cases h; rfl

theorem engineStep_decoded {s : State} {b : Byte} {i : Instr} (hedits : s.params.tableEdits = [])
    (hread : s.busRead s.pc = .ok b) (hi : decodeOpcode b = some i) :
    engineStep s = finishStep i.entry s.atOperand (exec i s.atOperand) :=
  engineStep_row hread (tableCell_of_lookup (by rw [hedits]; rfl) hi)

theorem engineStep_undecoded {s : State} {b : Byte} (hedits : s.params.tableEdits = [])
    (hread : s.busRead s.pc = .ok b) (hb : decodeOpcode b = none) :
    engineStep s = .fault (.unrecognizedOpcode b s.pc) :=
  engineStep_absent hread (tableCell_absent_iff.2 (.inl ⟨by rw [hedits]; rfl, hb⟩))

/-- Settles O12: the fetch raises, or the byte has no row, or its row runs, and neither the row nor the end
of the step refuses or raises anything but an error of the bus. -/
theorem stepCompletesOrRaisesOneOfThreeErrors : Obligations.StepCompletesOrRaisesOneOfThreeErrors := by
  intro s hrs hedits
  rw [step_running hrs]
  cases hread : s.busRead s.pc with
  | error f =>
    obtain ⟨hvideo, rfl⟩ := busRead_error hread
    exact .inr (.inr (.inl ⟨s.pc, .read, hvideo, engineStep_fetch_error hread⟩))
  | ok b =>
    cases hi : decodeOpcode b with
    | none => exact .inr (.inl ⟨b, rfl, hi, engineStep_undecoded hedits hread hi⟩)
    | some i =>
      rw [engineStep_decoded hedits hread hi]
      cases ho : finishStep i.entry s.atOperand (exec i s.atOperand) with
      | next t => exact .inl ⟨t, rfl⟩
      | fault f =>
        rcases finishStep_busFault exec_busFault ho with ⟨addr, access, hv, rfl⟩ | ⟨addr, v, hp, rfl⟩
        · exact .inr (.inr (.inl ⟨addr, access, hv, rfl⟩))
        · exact .inr (.inr (.inr ⟨addr, v, hp, rfl⟩))
      | refused r => exact absurd (finishStep_refused ho) (exec_ne_refused i _ r)

/-! The end of a run. -/

theorem enterFaulted_rs (s : State) (f : Fault) : (s.enterFaulted f).rs = .faulted f := by
  cases f <;> rfl

theorem enterFaulted_params (s : State) (f : Fault) : (s.enterFaulted f).params = s.params := by
  cases f <;> rfl

/-- Settles O34: after a raise the host sees the Faulted state, from which no step exists. -/
theorem raiseEndsTheRunInFaulted : Obligations.RaiseEndsTheRunInFaulted := by
  intro s f h
  have hrs : (afterStep s).rs = .faulted f := by rw [afterStep_of_fault h, enterFaulted_rs]
  refine ⟨hrs, by rw [afterStep_of_fault h, enterFaulted_params], step_faulted hrs, fun fuel => ?_, ?_⟩
  · rw [run, if_neg (by simp [hrs])]
  · rintro ⟨b, pc, rfl⟩
    rw [afterStep_of_fault h, enterFaulted_unrecognizedOpcode]

end Sys2Proof.Machine
end

section
/-! Noninterference: what a handler neither reads nor writes steers nothing (10_state.md R27, R28; the
observer's queue, 70_reset_and_hazards.md R358). -/

namespace Sys2Proof.Machine

/-- An outcome with its next state updated. -/
def mapNext (g : State → State) :
    Host.Outcome State Fault Refusal → Host.Outcome State Fault Refusal
  | .next t => .next (g t)
  | .fault f => .fault f
  | .refused r => .refused r

theorem outcome_eq_mapNext {g : State → State} {x y : Except Fault State} (h : x = y.map g) :
    outcome x = mapNext g (outcome y) := by
  subst h
  cases y <;> rfl

/-- A bus write goes through an update that keeps work RAM and lets a change of it through. -/
theorem busWrite_map {g : State → State} (hram : ∀ s, (g s).ram = s.ram)
    (hset : ∀ s m, (g s).setRam m = g (s.setRam m)) (s : State) (addr : Word) (v : Byte) :
    (g s).busWrite addr v = (s.busWrite addr v).map g := by
  unfold State.busWrite
  cases region addr
  case ram => exact congrArg Except.ok (by rw [hram, hset])
  all_goals rfl

/-- An update of the state that keeps what every handler reads, but for the flags listed, and commutes with
what every handler writes, but for those flags. The whole of P is kept only if no flag is listed. -/
structure Unseen (flags : List Flag) (g : State → State) : Prop where
  a : ∀ s, (g s).a = s.a
  x : ∀ s, (g s).x = s.x
  y : ∀ s, (g s).y = s.y
  sp : ∀ s, (g s).sp = s.sp
  pc : ∀ s, (g s).pc = s.pc
  ram : ∀ s, (g s).ram = s.ram
  params : ∀ s, (g s).params = s.params
  flag : ∀ s k, k ∉ flags → (g s).flag k = s.flag k
  p : flags = [] → ∀ s, (g s).p = s.p
  setA : ∀ s v, (g s).setA v = g (s.setA v)
  setX : ∀ s v, (g s).setX v = g (s.setX v)
  setY : ∀ s v, (g s).setY v = g (s.setY v)
  setSp : ∀ s v, (g s).setSp v = g (s.setSp v)
  setPc : ∀ s v, (g s).setPc v = g (s.setPc v)
  setRs : ∀ s r, (g s).setRs r = g (s.setRs r)
  setRam : ∀ s m, (g s).setRam m = g (s.setRam m)
  setFlag : ∀ s k b, k ∉ flags → (g s).setFlag k b = g (s.setFlag k b)
  setP : flags = [] → ∀ s v, (g s).setP v = g (s.setP v)

/-- No handler sees the observer's queue. -/
theorem unseen_setObserver (q : List (List (Word × Byte))) : Unseen [] (·.setObserver q) := by
  constructor <;> intros <;> rfl

/-- A write of one flag is seen by that flag's readers and writers alone. -/
theorem unseen_setFlag (f : Flag) (b : Bool) : Unseen [f] (·.setFlag f b) where
  a _ := rfl
  x _ := rfl
  y _ := rfl
  sp _ := rfl
  pc _ := rfl
  ram _ := rfl
  params _ := rfl
  flag s k hk := by rw [State.setFlag_flag, if_neg (by simpa using hk)]
  p h := by cases h
  setA _ _ := rfl
  setX _ _ := rfl
  setY _ _ := rfl
  setSp _ _ := rfl
  setPc _ _ := rfl
  setRs _ _ := rfl
  setRam _ _ := rfl
  setFlag s k c hk := by
    have hne : f ≠ k := fun h => hk (by simp [h])
    exact congrArg (fun p => { s with p := p }) (putFlag_comm s.p hne b c)
  setP h := by cases h

section Shapes

variable {flags : List Flag} {g : State → State} (hg : Unseen flags g)
include hg

theorem Unseen.busRead (s : State) (addr : Word) : (g s).busRead addr = s.busRead addr :=
  busRead_congr (hg.params s) (hg.ram s) addr

theorem Unseen.read16 (s : State) (addr : Word) : (g s).read16 addr = s.read16 addr := by
  simp only [State.read16, hg.busRead]

theorem Unseen.busWrite (s : State) (addr : Word) (v : Byte) :
    (g s).busWrite addr v = (s.busWrite addr v).map g :=
  busWrite_map hg.ram hg.setRam s addr v

theorem Unseen.effectiveAddress (e : OpcodeEntry) (s : State) :
    effectiveAddress e (g s) = effectiveAddress e s :=
  effectiveAddress_congr e (hg.x s) (hg.y s) (hg.pc s) (hg.params s) (hg.ram s)

theorem Unseen.withOperand (e : OpcodeEntry) (s : State) {f : State → Byte → State}
    (hf : ∀ v, f (g s) v = g (f s v)) : withOperand e (g s) f = (withOperand e s f).map g := by
  simp only [Machine.withOperand, operandByte, hg.effectiveAddress, hg.busRead, hf]
  cases Machine.effectiveAddress e s with
  | error f => rfl
  | ok ea =>
    simp only [except_ok_bind]
    cases s.busRead ea <;> rfl

theorem Unseen.storeByte (e : OpcodeEntry) (s : State) (v : Byte) :
    storeByte e (g s) v = (storeByte e s v).map g := by
  simp only [Machine.storeByte, hg.effectiveAddress, hg.busWrite]
  cases Machine.effectiveAddress e s <;> rfl

theorem Unseen.modifyByte (e : OpcodeEntry) (s : State) {result : State → Byte → Byte}
    {write : State → Byte → Byte → State} (hresult : ∀ v, result (g s) v = result s v)
    (hwrite : ∀ t v r, write (g t) v r = g (write t v r)) :
    modifyByte e (g s) result write = (modifyByte e s result write).map g := by
  simp only [Machine.modifyByte, hg.effectiveAddress, hg.busRead, hg.busWrite, hresult]
  cases Machine.effectiveAddress e s with
  | error f => rfl
  | ok ea =>
    simp only [except_ok_bind]
    cases s.busRead ea with
    | error f => rfl
    | ok v =>
      simp only [except_ok_bind]
      cases s.busWrite ea (result s v) with
      | error f => rfl
      | ok t => exact congrArg Except.ok (hwrite t v _)

theorem Unseen.branch (cond : Bool) (s : State) : branch cond (g s) = (branch cond s).map g := by
  simp only [Machine.branch, State.operand8, hg.busRead, hg.pc, hg.setPc]
  cases cond with
  | false => rfl
  | true => cases s.busRead s.pc <;> rfl

theorem Unseen.push (s : State) (v : Byte) : (g s).push v = (s.push v).map g := by
  simp only [push_eq, hg.sp, hg.ram, hg.setRam, hg.setSp]
  rfl

theorem Unseen.jmpAbs (s : State) : handleJmpAbs (g s) = (handleJmpAbs s).map g := by
  simp only [handleJmpAbs, State.operand16, hg.read16, hg.pc, hg.setPc]
  cases s.read16 s.pc <;> rfl

theorem Unseen.jmpInd (s : State) : handleJmpInd (g s) = (handleJmpInd s).map g := by
  simp only [handleJmpInd, State.operand16, hg.read16, hg.pc, hg.setPc]
  cases s.read16 s.pc with
  | error f => rfl
  | ok ptr =>
    simp only [except_ok_bind]
    cases s.read16 ptr <;> rfl

theorem Unseen.jsr (s : State) : handleJsr (g s) = (handleJsr s).map g := by
  simp only [handleJsr, push16_eq, except_ok_bind, State.operand16, hg.sp, hg.ram, hg.pc, hg.setRam, hg.setSp,
    hg.read16, hg.setPc]
  cases State.read16 _ _ <;> rfl

theorem Unseen.rts (s : State) : handleRts (g s) = (handleRts s).map g := by
  simp only [handleRts, pop16_eq, except_ok_bind, hg.sp, hg.ram, hg.setSp, hg.setPc]
  rfl

theorem Unseen.setZN (hz : Flag.z ∉ flags) (hn : Flag.n ∉ flags) (s : State) (v : Byte) :
    (g s).setZN v = g (s.setZN v) := by
  rw [State.setZN, hg.setFlag s _ _ hz, State.setN, hg.setFlag _ _ _ hn]
  rfl

theorem Unseen.setShiftFlags (hc : Flag.c ∉ flags) (hz : Flag.z ∉ flags) (hn : Flag.n ∉ flags)
    (s : State) (carry : Bool) (r : Byte) : (g s).setShiftFlags carry r = g (s.setShiftFlags carry r) := by
  rw [State.setShiftFlags, hg.setFlag s _ _ hc, hg.setZN hz hn]
  rfl

theorem Unseen.setRotateFlags (hc : Flag.c ∉ flags) (hz : Flag.z ∉ flags) (hn : Flag.n ∉ flags)
    (s : State) (form : ShiftForm) (carry : Bool) (r : Byte) :
    (g s).setRotateFlags form carry r = g (s.setRotateFlags form carry r) := by
  simp only [State.setRotateFlags, State.setRotZ, State.setN, hg.setFlag _ _ _ hc, hg.setFlag _ _ _ hn,
    hg.setFlag _ _ _ hz, hg.params]
  exact (apply_ite g _ _ _).symm

theorem Unseen.addToA (hc : Flag.c ∉ flags) (hv : Flag.v ∉ flags) (hz : Flag.z ∉ flags)
    (hn : Flag.n ∉ flags) (s : State) (m : Byte) : (g s).addToA m = g (s.addToA m) := by
  show ((((g s).setFlag .c _).setFlag .v _).setA _).setZN _ = _
  rw [hg.setFlag _ _ _ hc, hg.setFlag _ _ _ hv, hg.setA, hg.setZN hz hn, hg.a, hg.flag _ _ hc]
  rfl

theorem Unseen.bitTest (hz : Flag.z ∉ flags) (hn : Flag.n ∉ flags) (hv : Flag.v ∉ flags) (s : State)
    (m : Byte) : (g s).bitTest m = g (s.bitTest m) := by
  rw [State.bitTest, hg.setFlag _ _ _ hz, hg.setFlag _ _ _ hn, hg.setFlag _ _ _ hv, hg.a]
  rfl

end Shapes

/-- The flags a handler reads: the carry, the flag of a branch, and the whole of P, which PHP pushes. -/
def readFlags : Mnemonic → List Flag
  | .rol | .ror | .adc | .sbc | .bcc | .bcs => [.c]
  | .beq | .bne => [.z]
  | .bpl | .bmi => [.n]
  | .bvc | .bvs => [.v]
  | .php => allFlags
  | .lda | .ldx | .ldy | .sta | .stx | .sty | .tax | .tay | .txa | .tya | .tsx | .txs
  | .inx | .iny | .dex | .dey | .inc | .dec | .asl | .lsr | .and | .eor | .ora | .cmp | .cpx | .cpy | .bit
  | .jmp | .jsr | .rts | .pha | .pla | .plp | .clc | .sec | .cli | .sei | .cld | .sed | .clv | .rti
  | .nop | .brk => []

theorem eq_nil_of_disjoint_allFlags {flags : List Flag} (h : ∀ k ∈ allFlags, k ∉ flags) : flags = [] :=
  List.eq_nil_iff_forall_not_mem.2 fun k => h k (mem_allFlags k)

/-- An update that a handler does not see goes through the handler: of no flag that it reads or writes. -/
theorem handle_unseen {flags : List Flag} {g : State → State} (hg : Unseen flags g) {m : Mnemonic}
    (hflags : ∀ k ∈ writtenFlags m ++ readFlags m, k ∉ flags) (e : OpcodeEntry) (s : State) :
    handle m e (g s) = mapNext g (handle m e s) := by
  cases m
  case lda | ldx | ldy | and | eor | ora =>
    have hzn := hg.setZN (hflags .z (by decide)) (hflags .n (by decide))
    refine outcome_eq_mapNext (hg.withOperand e s fun v => ?_)
    simp only [hg.a, hg.setA, hg.setX, hg.setY, hzn]
  case adc | sbc =>
    refine outcome_eq_mapNext (hg.withOperand e s fun v => ?_)
    exact hg.addToA (hflags .c (by decide)) (hflags .v (by decide)) (hflags .z (by decide))
      (hflags .n (by decide)) s _
  case cmp | cpx | cpy =>
    refine outcome_eq_mapNext (hg.withOperand e s fun v => ?_)
    simp only [hg.a, hg.x, hg.y]
    exact hg.setShiftFlags (hflags .c (by decide)) (hflags .z (by decide)) (hflags .n (by decide)) s _ _
  case bit =>
    refine outcome_eq_mapNext (hg.withOperand e s fun v => ?_)
    exact hg.bitTest (hflags .z (by decide)) (hflags .n (by decide)) (hflags .v (by decide)) s v
  case sta | stx | sty =>
    refine outcome_eq_mapNext ?_
    simp only [handleSta, handleStx, handleSty, hg.a, hg.x, hg.y]
    exact hg.storeByte e s _
  case inc | dec =>
    exact outcome_eq_mapNext (hg.modifyByte e s (fun _ => rfl)
      fun t _ r => hg.setZN (hflags .z (by decide)) (hflags .n (by decide)) t r)
  case asl | lsr =>
    have hset := hg.setShiftFlags (hflags .c (by decide)) (hflags .z (by decide)) (hflags .n (by decide))
    cases hform : shiftFormOf e.code <;> simp only [handle, hform]
    case acc => simp only [handleAslAcc, handleLsrAcc, outcome_ok, mapNext, hg.a, hg.setA, hset]
    case mem => exact outcome_eq_mapNext (hg.modifyByte e s (fun _ => rfl) fun t _ r => hset t _ r)
  case rol | ror =>
    have hc := hflags .c (by decide)
    have hset := hg.setRotateFlags hc (hflags .z (by decide)) (hflags .n (by decide))
    cases hform : shiftFormOf e.code <;> simp only [handle, hform]
    case acc =>
      simp only [handleRolAcc, handleRorAcc, outcome_ok, mapNext, hg.a, hg.flag s .c hc, hg.setA, hset]
    case mem =>
      exact outcome_eq_mapNext
        (hg.modifyByte e s (fun _ => by rw [hg.flag s .c hc]) fun t _ r => hset t .mem _ r)
  case tax | tay | txa | tya | tsx | inx | iny | dex | dey =>
    have hzn := hg.setZN (hflags .z (by decide)) (hflags .n (by decide))
    simp only [handle, handleTax, handleTay, handleTxa, handleTya, handleTsx, handleInx, handleIny,
      handleDex, handleDey, outcome_ok, mapNext, hg.a, hg.x, hg.y, hg.sp, hg.setA, hg.setX, hg.setY, hzn]
  case txs => simp only [handle, handleTxs, outcome_ok, mapNext, hg.x, hg.setSp]
  case bcc | bcs =>
    refine outcome_eq_mapNext ?_
    simp only [handleBcc, handleBcs, condBcc, condBcs, hg.flag s .c (hflags .c (by decide))]
    exact hg.branch _ s
  case beq | bne =>
    refine outcome_eq_mapNext ?_
    simp only [handleBeq, handleBne, condBeq, condBne, hg.flag s .z (hflags .z (by decide))]
    exact hg.branch _ s
  case bpl | bmi =>
    refine outcome_eq_mapNext ?_
    simp only [handleBpl, handleBmi, condBpl, condBmi, hg.flag s .n (hflags .n (by decide))]
    exact hg.branch _ s
  case bvc | bvs =>
    refine outcome_eq_mapNext ?_
    simp only [handleBvc, handleBvs, condBvc, condBvs, hg.flag s .v (hflags .v (by decide))]
    exact hg.branch _ s
  case jmp =>
    simp only [handle]
    split
    · exact outcome_eq_mapNext (hg.jmpAbs s)
    · split
      · exact outcome_eq_mapNext (hg.jmpInd s)
      · rfl
  case jsr => exact outcome_eq_mapNext (hg.jsr s)
  case rts => exact outcome_eq_mapNext (hg.rts s)
  case pha =>
    refine outcome_eq_mapNext ?_
    rw [handlePha, hg.a]
    exact hg.push s s.a
  case php =>
    refine outcome_eq_mapNext ?_
    rw [handlePhp, hg.p (eq_nil_of_disjoint_allFlags hflags)]
    exact hg.push s _
  case pla =>
    have hzn := hg.setZN (hflags .z (by decide)) (hflags .n (by decide))
    simp only [handle, handlePla, pop_eq, except_ok_bind, outcome_ok, mapNext, hg.sp, hg.ram, hg.setSp,
      hg.setA, hzn]
  case plp =>
    have hnil := eq_nil_of_disjoint_allFlags fun k hk => hflags k (List.mem_append_left _ hk)
    simp only [handle, handlePlp, pop_eq, except_ok_bind, outcome_ok, mapNext, hg.sp, hg.ram, hg.setSp,
      hg.setP hnil]
  case rti =>
    have hnil := eq_nil_of_disjoint_allFlags fun k hk => hflags k (List.mem_append_left _ hk)
    simp only [handle, handleRti, pop_eq, pop16_eq, except_ok_bind, outcome_ok, mapNext, hg.sp, hg.ram,
      hg.setSp, hg.setP hnil, hg.setPc]
  case clc | sec | cli | sei | cld | sed | clv =>
    exact congrArg Host.Outcome.next (hg.setFlag s _ _ (hflags _ (by decide)))
  case nop => rfl
  case brk =>
    simp only [handle]
    split
    · exact congrArg Host.Outcome.next (hg.setRs s .halted)
    · rfl

/-- `handle_unseen` on a row of R84. -/
theorem exec_unseen {flags : List Flag} {g : State → State} (hg : Unseen flags g) {i : Instr}
    (hflags : ∀ k ∈ writtenFlags i.mnemonic ++ readFlags i.mnemonic, k ∉ flags) (s : State) :
    exec i (g s) = mapNext g (exec i s) := by
  simp only [exec_eq_handle]
  exact handle_unseen hg hflags i.entry s

/-- The mnemonics that read or write I or D: PHP, PLP, RTI and the flag's own two (R27, R28). -/
theorem interrupt_decimal_users {m : Mnemonic} {f : Flag}
    (h : (f = .i ∧ m ∉ [Mnemonic.cli, .sei, .php, .plp, .rti]) ∨
      (f = .d ∧ m ∉ [Mnemonic.cld, .sed, .php, .plp, .rti])) :
    f ∉ writtenFlags m ++ readFlags m := by
  rcases h with ⟨rfl, h⟩ | ⟨rfl, h⟩ <;> refine mt ?_ h <;> cases m <;> decide

/-- Settles O30: a handler that neither reads nor writes a flag lets a write of it through. -/
theorem interruptAndDecimalFlagsSteerNothing : Obligations.InterruptAndDecimalFlagsSteerNothing := by
  intro i s f b h
  have hthrough : exec i (s.setFlag f b) = mapNext (·.setFlag f b) (exec i s) :=
    exec_unseen (unseen_setFlag f b) (fun k hk hkf =>
      interrupt_decimal_users h (List.mem_singleton.1 hkf ▸ hk)) s
  exact ⟨fun t ht => by rw [hthrough, ht, mapNext], fun g hf => by rw [hthrough, hf, mapNext]⟩

end Sys2Proof.Machine
end

section
/-! The engine's loop (40_engine.md): the fetch, the halt, the length skip and the observer. -/

namespace Sys2Proof.Machine

/-! The end of a step, by its cases (R101). -/

theorem finishStep_halted {e : OpcodeEntry} {before t : State} (h : t.rs = .halted) :
    finishStep e before (.next t) = .next t := if_pos h

theorem finishStep_running {e : OpcodeEntry} {before t : State} (h : t.rs ≠ .halted) :
    finishStep e before (.next t) = outcome (observe (lengthSkip e before t)) := if_neg h

theorem observe_nil {s : State} (h : s.observer = []) : observe s = .ok s := by
  rw [observe, h]

theorem observe_cons {s : State} {ws : List (Word × Byte)} {rest : List (List (Word × Byte))}
    (h : s.observer = ws :: rest) : observe s = (s.setObserver rest).busWrites ws := by
  rw [observe, h]

/-! The run states (70_reset_and_hazards.md R359). -/

/-- Settles O13: the host's step sets RS to Running from Halted, and is refused in Faulted. -/
theorem stepFromHaltedResumesAndFromFaultedIsNone :
    Obligations.StepFromHaltedResumesAndFromFaultedIsNone := fun s =>
  ⟨fun h => (step_halted h).trans (step_running (s := s.setRs .running) rfl).symm,
    fun _ h => step_faulted h⟩

/-! The halt (R108). -/

/-- BRK's entry at 0x00 halts. -/
theorem finishStep_brk {e : OpcodeEntry} (hcode : e.code = 0x00) (before s : State) :
    finishStep e before (handle .brk e s) = .next (s.setRs .halted) := by
  have hbrk : handle .brk e s = .next (s.setRs .halted) := if_pos hcode
  rw [hbrk, finishStep_halted rfl]

/-- A handler that enters Halted is BRK's at 0x00. -/
theorem code_of_handle_halted {m : Mnemonic} {e : OpcodeEntry} {s u : State}
    (h : handle m e s = .next u) (hs : s.rs ≠ .halted) (hu : u.rs = .halted) : e.code = 0x00 := by
  obtain ⟨⟨-, -, -, -, -, hrs, -⟩, -⟩ := handle_changes h
  have hmem : RegName.rs ∈ writtenRegs m (shiftFormOf e.code) :=
    not_not.1 fun hnot => hs (hrs hnot ▸ hu)
  have hm : m = .brk := by
    revert hmem
    generalize shiftFormOf e.code = form
    cases form <;> cases m <;> decide
  subst hm
  by_contra hcode
  rw [handle, if_neg hcode] at h
  cases h

/-- Settles O11: BRK's entry at 0x00 halts, from the row of R84 and from another table's; and a step that
ends in Halted ran a handler that enters it, on an entry that stands at the byte fetched. -/
theorem haltIsReachedByOpcodeZeroAlone : Obligations.HaltIsReachedByOpcodeZeroAlone := by
  intro s hs
  refine ⟨fun hentry hread => ?_, fun t hstep ht => ?_⟩
  · have hread' : (s.setRs .running).busRead (s.setRs .running).pc = .ok 0x00 := hread
    rw [step_of_not_faulted hs]
    rcases hentry with hnone | ⟨e, hedit, hname⟩
    · rw [engineStep_row hread' (tableCell_of_lookup hnone (i := .brk) rfl), exec_eq_handle]
      exact finishStep_brk rfl _ _
    · rw [engineStep_named (m := .brk) hread' hedit hname]
      exact finishStep_brk rfl _ _
  · obtain ⟨b, m, e, u, hread, hcode, hu, hend⟩ := step_next_cases hstep
    have hurs : u.rs = .halted := by
      rcases hend with ⟨h, -⟩ | ⟨-, ⟨pc, q, r, rfl⟩, -⟩
      · exact h
      · exact ht
    rw [hread, ← hcode, code_of_handle_halted hu (by simp) hurs]

/-- Settles O10: a fetch from the video window raises, and one from the unmapped region reads 0x00, which
halts. -/
theorem fetchOutsideRamAndRom : Obligations.FetchOutsideRamAndRom := by
  intro s hrs
  refine ⟨fun hvideo => ?_, fun h1 h2 hedits => ?_,
    fun addr h1 h2 => busRead_unmapped (region_eq_unmapped.2 ⟨h1, h2⟩) s⟩
  · rw [step_running hrs, engineStep_fetch_error (busRead_video (region_eq_video.2 hvideo) s)]
  · exact (haltIsReachedByOpcodeZeroAlone s (.inl hrs)).1 (.inl (by rw [hedits]; rfl))
      (busRead_unmapped (region_eq_unmapped.2 ⟨h1, h2⟩) s)

/-! The step as a whole. -/

theorem skipApplies_iff {e : OpcodeEntry} {before after : State} :
    skipApplies e before after = true ↔
      (before.params.skipRule = .valueCompare ∧ after.pc = before.pc) ∨
        (before.params.skipRule = .classBased ∧
          ∀ m, Mnemonic.ofName e.mnemonic = some m → handlerWrotePC m before = false) := by
  unfold skipApplies
  cases before.params.skipRule with
  | valueCompare => simp
  | classBased => cases Mnemonic.ofName e.mnemonic <;> simp

/-- The multiplex refuses an entry only for its mnemonic and its code (log 9). -/
theorem executeEntry_refused {e : OpcodeEntry} {s : State} {r : Refusal}
    (h : executeEntry e s = .refused r) :
    r = .noHandler e.code ∧
      (Mnemonic.ofName e.mnemonic = none ∨ (e.mnemonic = "JMP" ∧ e.code ≠ 0x4C ∧ e.code ≠ 0x6C) ∨
        (e.mnemonic = "BRK" ∧ e.code ≠ 0x00)) := by
  unfold executeEntry at h
  cases hm : Mnemonic.ofName e.mnemonic with
  | none => rw [hm] at h; cases h; exact ⟨rfl, .inl rfl⟩
  | some m =>
    rw [hm] at h
    obtain ⟨hr, ⟨rfl, hcode⟩ | ⟨rfl, hcode⟩⟩ := handle_refused h
    · exact ⟨hr, .inr (.inl ⟨(name_of_ofName hm).symm, hcode⟩)⟩
    · exact ⟨hr, .inr (.inr ⟨(name_of_ofName hm).symm, hcode⟩)⟩

/-- Settles O7: either kind of entry gives the outcome of `Execute` to the end of the step, which goes by the
cases of that outcome; only another table's entry is refused. -/
theorem stepRunsTheDecodedInstruction : Obligations.StepRunsTheDecodedInstruction := by
  intro s b e o hs hread s₁ hentry
  have hread' : (s.setRs .running).busRead (s.setRs .running).pc = .ok b := hread
  have hstep : step s = finishStep e s₁ o := by
    rw [step_of_not_faulted hs]
    rcases hentry with ⟨hnone, i, hi, rfl, rfl⟩ | ⟨e', hedit, rfl, rfl⟩
    · exact engineStep_row hread' (tableCell_of_lookup hnone hi)
    · exact engineStep_other hread' hedit
  refine ⟨?fault, ?refused, ?halted, ?next⟩
  case fault => rintro f rfl; exact hstep
  case refused =>
    rintro r rfl
    rcases hentry with ⟨-, i, -, -, ho⟩ | ⟨e', -, rfl, ho⟩
    · exact absurd ho.symm (exec_ne_refused i s₁ r)
    · exact ⟨hstep, executeEntry_refused ho.symm⟩
  case halted => rintro t rfl ht; exact hstep.trans (finishStep_halted ht)
  case next =>
    rintro t rfl ht skips
    have hskips : skipApplies e s₁ t = true ↔ skips := skipApplies_iff
    refine ⟨lengthSkip e s₁ t, ⟨fun h => if_pos (hskips.2 h), fun h => if_neg (mt hskips.1 h)⟩,
      fun hq => ?_, fun ws rest hq => ?_⟩
    · rw [hstep, finishStep_running ht, observe_nil hq, outcome_ok]
    · rw [hstep, finishStep_running ht, observe_cons hq]
      rfl

end Sys2Proof.Machine
end

section
/-! The length skip and the observer after a row of R84 (40_engine.md R106, R107). -/

namespace Sys2Proof.Machine

/-! The length skip. -/

/-- PC past the operand bytes is PC at the opcode byte plus the length. -/
theorem skippedPc_add_one (e : OpcodeEntry) (pc : Word) :
    skippedPc e (pc + 1) = pc + BitVec.ofNat 16 e.length := by
  rw [skippedPc]
  ring

section Skip

variable {i : Instr} {before after : State}

/-- Under VALUE_COMPARE the skip follows a row that left PC at its value. -/
theorem lengthSkip_valueCompare (hrule : before.params.skipRule = .valueCompare)
    (hpc : after.pc = before.pc) :
    lengthSkip i.entry before after = after.setPc (skippedPc i.entry after.pc) :=
  if_pos (skipApplies_iff.2 (.inl ⟨hrule, hpc⟩))

/-- Under CLASS_BASED the skip follows no row that wrote PC. -/
theorem lengthSkip_classBased (hrule : before.params.skipRule = .classBased)
    (hw : handlerWrotePC i.mnemonic before = true) : lengthSkip i.entry before after = after := by
  refine if_neg fun h => ?_
  rcases skipApplies_iff.1 h with ⟨h, -⟩ | ⟨-, h⟩
  · rw [hrule] at h; cases h
  · rw [h _ (ofName_name i.mnemonic)] at hw; cases hw

/-- Under both rules the skip follows a row that wrote no PC. -/
theorem lengthSkip_of_kept (hpc : after.pc = before.pc) (hw : handlerWrotePC i.mnemonic before = false) :
    lengthSkip i.entry before after = after.setPc (skippedPc i.entry after.pc) := by
  cases hrule : before.params.skipRule with
  | valueCompare => exact lengthSkip_valueCompare hrule hpc
  | classBased =>
    refine if_pos (skipApplies_iff.2 (.inr ⟨hrule, fun m hm => ?_⟩))
    obtain rfl : i.mnemonic = m := Option.some.inj ((ofName_name i.mnemonic).symm.trans hm)
    exact hw

/-- Under both rules the skip follows no row that wrote another PC. -/
theorem lengthSkip_of_written (hpc : after.pc ≠ before.pc)
    (hw : handlerWrotePC i.mnemonic before = true) : lengthSkip i.entry before after = after := by
  cases hrule : before.params.skipRule with
  | valueCompare =>
    refine if_neg fun h => ?_
    rcases skipApplies_iff.1 h with ⟨-, h⟩ | ⟨h, -⟩
    · exact hpc h
    · rw [hrule] at h; cases h
  | classBased => exact lengthSkip_classBased hrule hw

end Skip

/-- A row but BRK keeps the run state. -/
theorem exec_keeps_rs {i : Instr} {s t : State} (h : exec i s = .next t) (hi : i.mnemonic ≠ .brk) :
    t.rs = s.rs := by
  obtain ⟨-, -, -, -, -, hrs⟩ := registersChangeOnlyByTheirWriters i s t h
  exact hrs hi

/-- Every row keeps the observer's queue. -/
theorem exec_keeps_observer {i : Instr} {s t : State} (h : exec i s = .next t) :
    t.observer = s.observer := by
  obtain ⟨⟨-, -, -, -, -, -, -, -, hobserver, -⟩, -⟩ := exec_changes h
  exact hobserver

/-- Without an observer a row that completes, but BRK, is followed by the length skip alone. -/
theorem step_of_exec {s t : State} {i : Instr} (hrs : s.rs = .running) (hedits : s.params.tableEdits = [])
    (hobserver : s.observer = []) (hread : s.busRead s.pc = .ok i.entry.code) (hi : i.mnemonic ≠ .brk)
    (hexec : exec i s.atOperand = .next t) : step s = .next (lengthSkip i.entry s.atOperand t) := by
  have ht : t.rs ≠ .halted := by
    rw [exec_keeps_rs hexec hi, State.atOperand_rs, hrs]
    simp
  obtain ⟨pc, hpc⟩ := lengthSkip_setPc i.entry s.atOperand t
  have hq : (lengthSkip i.entry s.atOperand t).observer = [] := by
    rw [hpc, State.setPc_observer, exec_keeps_observer hexec, State.atOperand_observer, hobserver]
  rw [step_running hrs, engineStep_decoded hedits hread (decodeOpcode_code i), hexec, finishStep_running ht,
    observe_nil hq, outcome_ok]

/-! The branches. -/

/-- The eight branches with the flag each tests and the value it is taken at (46_control.md R251 to R258). -/
def branchRows : List (Instr × Flag × Bool) :=
  [(.bcc, .c, false), (.bcs, .c, true), (.beq, .z, true), (.bne, .z, false),
    (.bpl, .n, false), (.bmi, .n, true), (.bvc, .v, false), (.bvs, .v, true)]

/-- A branch runs `Branch` on its condition, wrote PC exactly when the condition holds, and has two bytes. -/
theorem branchRow {i : Instr} {f : Flag} {v : Bool} (h : (i, f, v) ∈ branchRows) (s : State) :
    exec i s = outcome (branch (s.flag f == v) s) ∧ handlerWrotePC i.mnemonic s = (s.flag f == v) ∧
      i.entry.length = 2 ∧ i.mnemonic ≠ .brk := by
  fin_cases h <;> exact ⟨rfl, rfl, rfl, by decide⟩

theorem exec_branch_not_taken {i : Instr} {f : Flag} {v : Bool} (h : (i, f, v) ∈ branchRows) {s : State}
    (hf : s.flag f ≠ v) : exec i s = .next s := by
  obtain ⟨hexec, -⟩ := branchRow h s
  rw [hexec, beq_eq_false_iff_ne.2 hf]
  rfl

theorem exec_branch_taken {i : Instr} {f : Flag} {v : Bool} (h : (i, f, v) ∈ branchRows) {s : State}
    (hf : s.flag f = v) {off : Byte} (hoff : s.busRead s.pc = .ok off) :
    exec i s = .next (s.setPc (branchTarget s.pc off)) := by
  obtain ⟨hexec, -⟩ := branchRow h s
  rw [hexec, beq_iff_eq.2 hf, branch, if_pos rfl, State.operand8, hoff, except_ok_bind, outcome_ok]

/-- Offset 0xFF is -1: the target is the offset byte. -/
theorem branchTarget_ff (pc : Word) : branchTarget pc 0xFF = pc := by
  have h : sext16 0xFF = -1 := rfl
  rw [branchTarget, h]
  ring

/-- Settles O8: with PC at its value after the row, the skip follows under VALUE_COMPARE, and under
CLASS_BASED it does not, because the row's class wrote PC. -/
theorem pcWriteOfItsOwnValueMeetsTheSkipRule : Obligations.PcWriteOfItsOwnValueMeetsTheSkipRule := by
  refine ⟨fun s i f v hrow hrs hedits hobs hread hoff hf => ?branch,
    fun s t i hi hrs hedits hobs hread hexec hpc => ?jump⟩
  case branch =>
    obtain ⟨-, hw, hlen, hbrk⟩ := branchRow hrow s.atOperand
    have hexec : exec i s.atOperand = .next s.atOperand := by
      rw [exec_branch_taken hrow (s := s.atOperand) hf hoff, branchTarget_ff]
      rfl
    rw [step_of_exec hrs hedits hobs hread hbrk hexec]
    refine ⟨fun hrule => ?_, fun hrule => ?_⟩
    · rw [lengthSkip_valueCompare (before := s.atOperand) hrule rfl, State.atOperand_pc,
        skippedPc_add_one, hlen]
      rfl
    · rw [lengthSkip_classBased (before := s.atOperand) hrule (hw.trans (beq_iff_eq.2 hf))]
      rfl
  case jump =>
    have hrow : (∀ s, handlerWrotePC i.mnemonic s = true) ∧ i.entry.length = 3 ∧
        i.mnemonic ≠ .brk := by
      fin_cases hi <;> exact ⟨fun _ => rfl, rfl, by decide⟩
    obtain ⟨hw, hlen, hbrk⟩ := hrow
    rw [step_of_exec hrs hedits hobs hread hbrk hexec]
    refine ⟨fun hrule => ?_, fun hrule => ?_⟩
    · rw [lengthSkip_valueCompare (before := s.atOperand) hrule hpc, hpc, skippedPc_add_one, hlen]
      rfl
    · rw [lengthSkip_classBased (before := s.atOperand) hrule (hw _)]

theorem branch_not_taken {cond : Bool} {s t : State} (hcond : cond = false)
    (h : branch cond s = .ok t) : t.pc = s.pc := by
  subst hcond
  cases h
  rfl

/-- A handler that completes and, by R106, wrote no PC left PC at its value. -/
theorem handle_keeps_pc {m : Mnemonic} {e : OpcodeEntry} {s t : State} (h : handle m e s = .next t)
    (hw : handlerWrotePC m s = false) : t.pc = s.pc := by
  obtain ⟨⟨-, -, -, -, hpc, -⟩, -⟩ := handle_changes h
  generalize shiftFormOf e.code = form at hpc
  cases m
  case bcc | bcs | beq | bne | bpl | bmi | bvc | bvs => exact branch_not_taken hw (outcome_eq_next.1 h)
  case jmp | jsr | rts | rti => cases hw
  all_goals exact hpc (by cases form <;> decide)

/-- `handle_keeps_pc` on a row of R84. -/
theorem exec_keeps_pc {i : Instr} {s t : State} (h : exec i s = .next t)
    (hw : handlerWrotePC i.mnemonic s = false) : t.pc = s.pc :=
  handle_keeps_pc (exec_eq_handle i s ▸ h) hw

/-- No straight-line mnemonic is a writer of PC by R106. -/
theorem handlerWrotePC_straightLine {m : Mnemonic} (s : State)
    (h : m ∉ [Mnemonic.bcc, .bcs, .beq, .bne, .bpl, .bmi, .bvc, .bvs, .jmp, .jsr, .rts, .rti, .brk]) :
    handlerWrotePC m s = false := by
  revert h
  cases m <;> simp [handlerWrotePC]

/-- Settles O9: a straight-line row and a branch not taken leave PC, so the skip follows; a row that left
another PC wrote it, so the skip does not. -/
theorem straightLineStepAdvancesByLength : Obligations.StraightLineStepAdvancesByLength := by
  refine ⟨fun s t b i hm hrs hedits hread hi hstep => ?straight,
    fun s i f v hrow hrs hedits hobs hread hf => ?notTaken,
    fun s t i hi hrs hedits hobs hread hexec hpc => ?elsewhere⟩
  case straight =>
    have hbrk : i.mnemonic ≠ .brk := fun h => hm (by simp [h])
    rw [step_running hrs, engineStep_decoded hedits hread hi] at hstep
    obtain ⟨u, hu, -⟩ := finishStep_cases hstep
    have hurs : u.rs ≠ .halted := by
      rw [exec_keeps_rs hu hbrk, State.atOperand_rs, hrs]
      simp
    have hw := handlerWrotePC_straightLine s.atOperand hm
    have hupc := exec_keeps_pc hu hw
    rw [hu, finishStep_running hurs, outcome_eq_next, lengthSkip_of_kept hupc hw, hupc,
      State.atOperand_pc, skippedPc_add_one] at hstep
    obtain ⟨⟨q, m, rfl⟩, -⟩ := observe_frame hstep
    rfl
  case notTaken =>
    obtain ⟨-, hw, hlen, hbrk⟩ := branchRow hrow s.atOperand
    rw [step_of_exec hrs hedits hobs hread hbrk (exec_branch_not_taken hrow (s := s.atOperand) hf),
      lengthSkip_of_kept rfl (hw.trans (beq_eq_false_iff_ne.2 hf)), State.atOperand_pc,
      skippedPc_add_one, hlen]
    rfl
  case elsewhere =>
    have hbrk : i.mnemonic ≠ .brk := by fin_cases hi <;> decide
    have hw : handlerWrotePC i.mnemonic s.atOperand = true :=
      Bool.eq_true_of_not_eq_false (mt (exec_keeps_pc hexec) hpc)
    rw [step_of_exec hrs hedits hobs hread hbrk hexec, lengthSkip_of_written hpc hw]

/-! The observer. -/

/-- The length skip does not see the observer's queue. -/
theorem lengthSkip_setObserver (e : OpcodeEntry) (before after : State) (q : List (List (Word × Byte))) :
    lengthSkip e (before.setObserver q) (after.setObserver q) =
      (lengthSkip e before after).setObserver q := by
  have hskip : skipApplies e (before.setObserver q) (after.setObserver q) =
      skipApplies e before after := rfl
  rw [lengthSkip, lengthSkip, hskip]
  split <;> rfl

/-- A step is the step without an observer, then, but after a halt or a raise, the observer. -/
theorem step_quiet_cases {s : State} (hrs : s.rs = .running) (hedits : s.params.tableEdits = []) :
    (∃ f, step (s.setObserver []) = .fault f ∧ step s = .fault f) ∨
      (∃ t, step (s.setObserver []) = .next (t.setObserver []) ∧ t.observer = s.observer ∧
        ((t.rs = .halted ∧ step s = .next t) ∨
          (t.rs ≠ .halted ∧ step s = outcome (observe t)))) := by
  rw [step_running hrs, step_running (s := s.setObserver []) hrs]
  cases hread : s.busRead s.pc with
  | error f =>
    exact .inl ⟨f, engineStep_fetch_error (s := s.setObserver []) hread, engineStep_fetch_error hread⟩
  | ok b =>
    cases hi : decodeOpcode b with
    | none =>
      exact .inl ⟨_, engineStep_undecoded (s := s.setObserver []) hedits hread hi,
        engineStep_undecoded hedits hread hi⟩
    | some i =>
      rw [engineStep_decoded hedits hread hi, engineStep_decoded (s := s.setObserver []) hedits hread hi]
      have hthrough : exec i (s.setObserver []).atOperand =
          mapNext (·.setObserver []) (exec i s.atOperand) :=
        exec_unseen (unseen_setObserver []) (by simp) s.atOperand
      rw [hthrough]
      cases hexec : exec i s.atOperand with
      | fault f => exact .inl ⟨f, rfl, rfl⟩
      | refused r => exact absurd hexec (exec_ne_refused i _ r)
      | next u =>
        have hu : u.observer = s.observer := (exec_keeps_observer hexec).trans s.atOperand_observer
        by_cases hurs : u.rs = .halted
        · exact .inr ⟨u, finishStep_halted hurs, hu, .inl ⟨hurs, finishStep_halted hurs⟩⟩
        · obtain ⟨pc, hpc⟩ := lengthSkip_setPc i.entry s.atOperand u
          refine .inr ⟨lengthSkip i.entry s.atOperand u, ?_, by rw [hpc]; exact hu,
            .inr ⟨by rw [hpc]; exact hurs, finishStep_running hurs⟩⟩
          rw [mapNext, finishStep_running (t := u.setObserver []) hurs]
          exact congrArg (fun t => outcome (observe t)) (lengthSkip_setObserver i.entry s.atOperand u [])

theorem busWrites_cons_error {s : State} {addr : Word} {v : Byte} {f : Fault}
    (h : s.busWrite addr v = .error f) (ws : List (Word × Byte)) :
    s.busWrites ((addr, v) :: ws) = .error f := by
  rw [State.busWrites, h, except_error_bind]

theorem busWrites_cons_ok {s t : State} {addr : Word} {v : Byte} (h : s.busWrite addr v = .ok t)
    (ws : List (Word × Byte)) : s.busWrites ((addr, v) :: ws) = t.busWrites ws := by
  rw [State.busWrites, h, except_ok_bind]

/-- A NOP moves PC past its byte, and the observer follows. -/
theorem step_nop {s : State} {ws : List (Word × Byte)} {rest : List (List (Word × Byte))}
    (hrs : s.rs = .running) (hedits : s.params.tableEdits = []) (hread : s.busRead s.pc = .ok 0xEA)
    (hobs : s.observer = ws :: rest) :
    step s = outcome (((s.setPc (s.pc + 1)).setObserver rest).busWrites ws) := by
  have hrun : s.atOperand.rs ≠ .halted := by simp [hrs]
  have hskip : lengthSkip Instr.nop.entry s.atOperand s.atOperand = s.setPc (s.pc + 1) := by
    rw [lengthSkip_of_kept rfl rfl, State.atOperand_pc, skippedPc_add_one]
    rfl
  rw [step_running hrs, engineStep_decoded (i := .nop) hedits hread rfl]
  exact (finishStep_running hrun).trans (by rw [hskip, observe_cons (by exact hobs)])

/-- Settles O14: the step is the step without an observer and then the writes at the front of the queue,
which change work RAM alone. -/
theorem observerWritesTheBusAfterTheStep : Obligations.ObserverWritesTheBusAfterTheStep := by
  refine ⟨?any, ?writes, ?nop⟩
  case any =>
    intro s ws rest hrs hedits hobs quiet
    rcases step_quiet_cases hrs hedits with ⟨f, hquiet, hs⟩ | ⟨u, hquiet, hu, hend⟩
    · refine ⟨fun g hg => ?_, fun t ht _ => ?_, fun t ht _ => ?_⟩
      · cases hquiet.symm.trans hg; exact hs
      · cases hquiet.symm.trans ht
      · cases hquiet.symm.trans ht
    · refine ⟨fun g hg => ?_, fun t ht hhalted => ?_, fun t ht hrunning => ?_⟩
      · cases hquiet.symm.trans hg
      · cases hquiet.symm.trans ht
        rcases hend with ⟨-, hs⟩ | ⟨hrunning, -⟩
        · rw [hs, ← hu]; rfl
        · exact absurd hhalted hrunning
      · cases hquiet.symm.trans ht
        rcases hend with ⟨hhalted, -⟩ | ⟨-, hs⟩
        · exact absurd hhalted hrunning
        · rw [observe_cons (hu.trans hobs)] at hs
          refine ⟨hs, fun w hw => ?_⟩
          obtain ⟨⟨m, rfl⟩, -⟩ := busWrites_frame (outcome_eq_next.1 (hs.symm.trans hw))
          rfl
  case writes =>
    exact fun s addr v ws => ⟨rfl, fun f h => busWrites_cons_error h ws,
      fun t h => busWrites_cons_ok h ws⟩
  case nop =>
    intro s addr v rest hrs hedits hread hobs
    have hwrite : ((s.setPc (s.pc + 1)).setObserver rest).busWrite addr v =
        (s.busWrite addr v).map fun t => (t.setPc (s.pc + 1)).setObserver rest :=
      busWrite_map (g := fun t => (t.setPc (s.pc + 1)).setObserver rest) (fun _ => rfl) (fun _ _ => rfl)
        s addr v
    rw [step_nop hrs hedits hread hobs]
    refine ⟨fun f h => ?_, fun t h => ?_⟩ <;> rw [h] at hwrite
    · rw [busWrites_cons_error hwrite, outcome_error]
    · rw [busWrites_cons_ok hwrite]
      rfl

end Sys2Proof.Machine
end

section
/-! Rotates (44_shift_rotate.md). -/

namespace Sys2Proof.Machine

theorem toNat_rotateLeft (c : Bool) (v : Byte) :
    (rotateLeft c v).toNat = v.toNat * 2 % 256 + c.toNat := by
  revert c v
  decide

theorem toNat_rotateRight (c : Bool) (v : Byte) :
    (rotateRight c v).toNat = v.toNat / 2 + 128 * c.toNat := by
  revert c v
  decide

/-- Bit 6 becomes bit 7 of a left rotate's result. -/
theorem rotateLeft_getLsbD_seven (c : Bool) (v : Byte) : (rotateLeft c v).getLsbD 7 = v.getLsbD 6 := by
  revert c v
  decide

/-- The carry becomes bit 7 of a right rotate's result. -/
theorem rotateRight_getLsbD_seven (c : Bool) (v : Byte) : (rotateRight c v).getLsbD 7 = c := by
  revert c v
  decide

/-- The accumulator forms write Z under every setting but NEVER (R200). -/
theorem rotWritesZ_acc {z : RotZ} : rotWritesZ z .acc = true ↔ z ≠ .never := by cases z <;> decide

/-- The memory forms write Z under ALWAYS alone (R200). -/
theorem rotWritesZ_mem {z : RotZ} : rotWritesZ z .mem = true ↔ z = .always := by cases z <;> decide

section RotateFlags

variable (s : State) (form : ShiftForm) (c : Bool) (r : Byte)

theorem setRotateFlags_flag_c : (s.setRotateFlags form c r).flag .c = c := by simp

theorem setRotateFlags_flag_n : (s.setRotateFlags form c r).flag .n = r.getLsbD 7 := by
  simp [BitVec.msb_eq_getLsbD_last]

theorem setRotateFlags_flag_z :
    (s.setRotateFlags form c r).flag .z =
      if rotWritesZ s.params.rotZ form = true then r == 0 else s.flag .z := by
  simp

end RotateFlags

/-- What ROL and ROR on A share: the accumulator becomes `r`, and C, N and, by P_ROT_Z, Z follow. -/
theorem exec_rotate_accumulator {i : Instr} {s : State} {c : Bool} {r : Byte}
    (hexec : exec i s = .next ((s.setA r).setRotateFlags .acc c r)) :
    ∃ t, exec i s = .next t ∧ t.a = r ∧ t.flag .c = c ∧ t.flag .n = r.getLsbD 7 ∧
      (s.params.rotZ = .never → t.flag .z = s.flag .z) ∧
      (s.params.rotZ ≠ .never → t.flag .z = (t.a == 0)) ∧
      KeepsAllBut [.a] [.c, .z, .n] s t ∧ MemoryKept s t := by
  have hframe := setRotateFlags_keepsAllBut (setA_keepsAllBut s r) .acc c r
  refine ⟨_, hexec, by simp, setRotateFlags_flag_c _ _ _ _, setRotateFlags_flag_n _ _ _ _,
    fun h => ?_, fun h => ?_, hframe, memoryKept_of_keepsAllBut hframe (by simp)⟩
  · rw [setRotateFlags_flag_z]
    exact if_neg fun hw => rotWritesZ_acc.1 hw h
  · rw [setRotateFlags_flag_z, State.setRotateFlags_a]
    exact if_pos (rotWritesZ_acc.2 h)

/-- What ROL and ROR on memory share: a read-modify-write whose new byte `g c v`, from the carry and the old
byte, is the number `n c v` with bit 7 `neg c v`, followed by C as the bit `carry v` of the old byte, by N,
and by Z as P_ROT_Z says. -/
theorem modifiesByte_setRotateFlags {i : Instr} {g : Bool → Byte → Byte} {n : Bool → Byte → Nat}
    {carry : Byte → Bool} {neg : Bool → Byte → Bool}
    (hexec : ∀ s, exec i s = outcome (modifyByte i.entry s (fun t v => g (t.flag .c) v)
      fun t v r => t.setRotateFlags .mem (carry v) r))
    (hg : ∀ c v, (g c v).toNat = n c v) (hneg : ∀ c v, (g c v).getLsbD 7 = neg c v) :
    ModifiesByte i (fun s v => BitVec.ofNat 8 (n (s.flag .c) v)) fun s v t =>
      t.flag .c = carry v ∧ t.flag .n = neg (s.flag .c) v ∧
      (s.params.rotZ ≠ .always → t.flag .z = s.flag .z) ∧
      (s.params.rotZ = .always → t.flag .z = decide (n (s.flag .c) v = 0)) ∧
      KeepsAllBut [] [.c, .z, .n] s t := by
  have hbyte (c : Bool) (v : Byte) : g c v = BitVec.ofNat 8 (n c v) := by
    rw [← hg c v, BitVec.ofNat_toNat, BitVec.setWidth_eq]
  refine modifiesByte_of hexec (fun s v => hbyte _ v) (fun s m v => ?_) fun _ _ _ => by simp
  rw [← hbyte]
  refine ⟨setRotateFlags_flag_c _ _ _ _, (setRotateFlags_flag_n _ _ _ _).trans (hneg _ v),
    fun h => ?_, fun h => ?_, setRotateFlags_keepsAllBut (setRam_keepsAllBut s m) _ _ _⟩
  · rw [setRotateFlags_flag_z]
    exact if_neg (mt rotWritesZ_mem.1 h)
  · rw [setRotateFlags_flag_z, State.setRam_params, if_pos (rotWritesZ_mem.2 h), ← hg]
    simp [beq_eq_decide, ← BitVec.toNat_inj]

/-- Settles O41: the accumulator row is an instance of `exec_rotate_accumulator` and each memory row one of
`modifiesByte_setRotateFlags`, with what the rotate makes of the byte's number and of its bit 7. -/
theorem rotateLeftGoesThroughCarry : Obligations.RotateLeftGoesThroughCarry := by
  refine ⟨⟨rfl, rfl⟩, fun s => ?acc, fun r hr => ?mem⟩
  case acc =>
    obtain ⟨t, ht, ha, hc, hn, hrest⟩ := exec_rotate_accumulator (i := .rolAcc) (s := s) rfl
    exact ⟨t, ht, ha ▸ toNat_rotateLeft _ s.a, hc, hn.trans (rotateLeft_getLsbD_seven _ _), hrest⟩
  case mem =>
    fin_cases hr <;> exact ⟨⟨rfl, rfl⟩,
      modifiesByte_setRotateFlags (fun _ => rfl) toNat_rotateLeft rotateLeft_getLsbD_seven⟩

/-- Settles O42: as O41, with the right rotate's number and bit 7. -/
theorem rotateRightGoesThroughCarry : Obligations.RotateRightGoesThroughCarry := by
  refine ⟨⟨rfl, rfl⟩, fun s => ?acc, fun r hr => ?mem⟩
  case acc =>
    obtain ⟨t, ht, ha, hc, hn, hrest⟩ := exec_rotate_accumulator (i := .rorAcc) (s := s) rfl
    exact ⟨t, ht, ha ▸ toNat_rotateRight _ s.a, hc, hn.trans (rotateRight_getLsbD_seven _ _), hrest⟩
  case mem =>
    fin_cases hr <;> exact ⟨⟨rfl, rfl⟩,
      modifiesByte_setRotateFlags (fun _ => rfl) toNat_rotateRight rotateRight_getLsbD_seven⟩

/-! Nine rotates (R208). -/

/-- A rotate of the carry and a byte, as one ring of nine bits: the byte gives the bit `carry` to the carry,
and `g` brings the old carry into the byte. -/
def rotateRing (carry : Byte → Bool) (g : Bool → Byte → Byte) (p : Bool × Byte) : Bool × Byte :=
  (carry p.2, g p.1 p.2)

theorem rotateRing_left_nine (p : Bool × Byte) : (rotateRing (·.getLsbD 7) rotateLeft)^[9] p = p := by
  obtain ⟨c, v⟩ := p
  revert c v
  decide

theorem rotateRing_right_nine (p : Bool × Byte) : (rotateRing (·.getLsbD 0) rotateRight)^[9] p = p := by
  obtain ⟨c, v⟩ := p
  revert c v
  decide

/-- Executing a row `n` times takes a relation through `n` steps of `f` if executing it once takes it
through one. -/
theorem execTimes_iterate {σ : Type} {i : Instr} {f : σ → σ} {R : σ → State → Prop}
    (hstep : ∀ p t, R p t → ∃ u, exec i t = .next u ∧ R (f p) u) (n : Nat) {p : σ} {s : State}
    (h : R p s) : ∃ t, execTimes i n s = .next t ∧ R (f^[n] p) t := by
  induction n generalizing p s with
  | zero => exact ⟨s, rfl, h⟩
  | succ n ih =>
    obtain ⟨u, hu, hR⟩ := hstep p s h
    obtain ⟨t, ht, hRt⟩ := ih hR
    exact ⟨t, by rw [execTimes, hu]; exact ht, hRt⟩

theorem keepsAllBut_trans {regs : List RegName} {flags : List Flag} {s t u : State}
    (h : KeepsAllBut regs flags s t) (h' : KeepsAllBut regs flags t u) : KeepsAllBut regs flags s u := by
  obtain ⟨ha, hx, hy, hsp, hpc, hrs, hflag, hparams, hobserver, hdraw⟩ := h
  obtain ⟨ha', hx', hy', hsp', hpc', hrs', hflag', hparams', hobserver', hdraw'⟩ := h'
  exact ⟨fun h => (ha' h).trans (ha h), fun h => (hx' h).trans (hx h), fun h => (hy' h).trans (hy h),
    fun h => (hsp' h).trans (hsp h), fun h => (hpc' h).trans (hpc h), fun h => (hrs' h).trans (hrs h),
    fun f h => (hflag' f h).trans (hflag f h), hparams'.trans hparams, hobserver'.trans hobserver,
    hdraw'.trans hdraw⟩

/-- In the modes of a rotate the resolver reads X, PC and the operand bytes, and nothing else. -/
theorem effectiveAddress_of_operand {e : OpcodeEntry} {s t : State}
    (hmode : e.mode ∈ [Mode.zeroPage, .zeroPageX] ∨
      (e.mode ∈ [Mode.absolute, .absoluteX] ∧ t.busRead (s.pc + 1) = s.busRead (s.pc + 1)))
    (hx : t.x = s.x) (hpc : t.pc = s.pc) (hread : t.busRead s.pc = s.busRead s.pc) :
    effectiveAddress e t = effectiveAddress e s := by
  rcases hmode with hmode | ⟨hmode, hnext⟩
  · cases hm : e.mode <;> simp_all [effectiveAddress]
  · cases hm : e.mode <;> simp_all [effectiveAddress, State.read16]

theorem sameRamByte_self {addr : Word} (h : addr.toNat ≤ 0x1FFF) : sameRamByte addr addr = true :=
  sameRamByte_iff.2 ⟨h, h, rfl⟩

/-- All addresses of a byte of work RAM read as that byte. -/
theorem memoryHolds_get (addr : Word) (s : State) :
    MemoryHolds addr (Memory.get s.ram (ramIndex addr)) s := by
  intro addr' hsame
  obtain ⟨-, hram, hmod⟩ := sameRamByte_iff.1 hsame
  rw [busRead_ram (region_eq_ram.2 hram), ramIndex_eq_mod, ramIndex_eq_mod, hmod]

/-- What rotates of the byte at `ea` keep of the state `s`: `p` is the carry and the byte they have
reached. -/
structure Rotated (s : State) (ea : Word) (p : Bool × Byte) (t : State) : Prop where
  frame : KeepsAllBut [] [.c, .z, .n] s t
  canonical : MemoryCanonical t
  carry : t.flag .c = p.1
  byte : MemoryHolds ea p.2 t
  memory : MemoryKeptExcept ea s t

/-- Before the first rotate the carry and the byte are those of the state. -/
theorem rotated_refl {s : State} (hs : MemoryCanonical s) (ea : Word) :
    Rotated s ea (s.flag .c, Memory.get s.ram (ramIndex ea)) s where
  frame := by simp [KeepsAllBut]
  canonical := hs
  carry := rfl
  byte := memoryHolds_get ea s
  memory _ _ := rfl

/-- Where the byte and the carry are back, so is all of memory. -/
theorem Rotated.memoryKept {s t : State} {ea : Word}
    (h : Rotated s ea (s.flag .c, Memory.get s.ram (ramIndex ea)) t) : MemoryKept s t := by
  intro addr
  cases hsame : sameRamByte ea addr with
  | true => rw [h.byte addr hsame, memoryHolds_get ea s addr hsame]
  | false => exact h.memory addr hsame

/-- A row's mode reads one operand byte, or two where the row has three bytes. -/
def HasRotateMode (i : Instr) : Prop :=
  i.entry.mode ∈ [Mode.zeroPage, .zeroPageX] ∨
    (i.entry.mode ∈ [Mode.absolute, .absoluteX] ∧ i.entry.length = 3)

section MemoryRotate

variable {i : Instr} {carry : Byte → Bool} {g : Bool → Byte → Byte}

/-- A row whose meaning is a rotate of memory gives the byte one step in the ring, and C. -/
theorem modifiesByte_rotate
    (hexec : ∀ s, exec i s = outcome (modifyByte i.entry s (fun t v => g (t.flag .c) v)
      fun t v r => t.setRotateFlags .mem (carry v) r)) :
    ModifiesByte i (fun s v => g (s.flag .c) v) fun s v t =>
      t.flag .c = carry v ∧ KeepsAllBut [] [.c, .z, .n] s t :=
  modifiesByte_of hexec (fun _ _ => rfl)
    (fun s m v => ⟨setRotateFlags_flag_c _ _ _ _,
      setRotateFlags_keepsAllBut (setRam_keepsAllBut s m) _ _ _⟩)
    fun _ _ _ => by simp

/-- A rotate of the byte at `ea` takes one step in the ring of the carry and the byte. -/
theorem rotated_step {s t : State} {ea : Word} {p : Bool × Byte}
    (hmod : ModifiesByte i (fun s v => g (s.flag .c) v) fun s v t =>
      t.flag .c = carry v ∧ KeepsAllBut [] [.c, .z, .n] s t)
    (hea : ea.toNat ≤ 0x1FFF) (hres : effectiveAddress i.entry t = .ok ea) (h : Rotated s ea p t) :
    ∃ u, exec i t = .next u ∧ Rotated s ea (rotateRing carry g p) u := by
  obtain ⟨-, -, hread⟩ := hmod t
  obtain ⟨-, hwrite⟩ := hread ea p.2 hres (h.byte ea (sameRamByte_self hea))
  obtain ⟨u, hu, ⟨hcarry, hframe⟩, hmem⟩ := hwrite (by simp only [InPrgWindow]; omega)
  obtain ⟨hbyte, hkept⟩ := hmem h.canonical
  simp only [h.carry] at hbyte
  exact ⟨u, hu, keepsAllBut_trans h.frame hframe, (exec_changes hu).2 h.canonical, hcarry, hbyte,
    fun addr hne => (hkept addr hne).trans (h.memory addr hne)⟩

/-- Nine rotates of a byte of work RAM that is none of the row's operand bytes give all of memory and the
carry back, if nine steps in the ring do. -/
theorem nine_memory_rotates
    (hexec : ∀ s, exec i s = outcome (modifyByte i.entry s (fun t v => g (t.flag .c) v)
      fun t v r => t.setRotateFlags .mem (carry v) r))
    (hnine : ∀ p, (rotateRing carry g)^[9] p = p) (hmode : HasRotateMode i) {s : State} {ea : Word}
    (hs : MemoryCanonical s) (hres : effectiveAddress i.entry s = .ok ea) (hea : ea.toNat ≤ 0x1FFF)
    (hfirst : sameRamByte ea s.pc = false)
    (hsecond : i.entry.length = 3 → sameRamByte ea (s.pc + 1) = false) :
    ∃ t, execTimes i 9 s = .next t ∧ MemoryKept s t ∧ t.flag .c = s.flag .c := by
  have hresolve (p : Bool × Byte) (t : State) (h : Rotated s ea p t) :
      effectiveAddress i.entry t = .ok ea := by
    obtain ⟨-, hx, -, -, hpc, -⟩ := h.frame
    rw [effectiveAddress_of_operand
      (hmode.imp_right fun ⟨hm, hlen⟩ => ⟨hm, h.memory _ (hsecond hlen)⟩)
      (hx (by simp)) (hpc (by simp)) (h.memory _ hfirst), hres]
  obtain ⟨t, ht, hrot⟩ := execTimes_iterate
    (fun p t h => rotated_step (modifiesByte_rotate hexec) hea (hresolve p t h) h) 9 (rotated_refl hs ea)
  rw [hnine] at hrot
  exact ⟨t, ht, hrot.memoryKept, hrot.carry⟩

end MemoryRotate

/-- The carry and A, as the pair that rotates of A take through the ring. -/
def CarryAndA (p : Bool × Byte) (t : State) : Prop := t.flag .c = p.1 ∧ t.a = p.2

/-- Nine rotates of A give A and the carry back, if nine steps in the ring do. -/
theorem nine_accumulator_rotates {i : Instr} {carry : Byte → Bool} {g : Bool → Byte → Byte}
    (hexec : ∀ s, exec i s = .next
      ((s.setA (g (s.flag .c) s.a)).setRotateFlags .acc (carry s.a) (g (s.flag .c) s.a)))
    (hnine : ∀ p, (rotateRing carry g)^[9] p = p) (s : State) :
    ∃ t, execTimes i 9 s = .next t ∧ t.a = s.a ∧ t.flag .c = s.flag .c := by
  have hstep (p : Bool × Byte) (t : State) (h : CarryAndA p t) :
      ∃ u, exec i t = .next u ∧ CarryAndA (rotateRing carry g p) u := by
    obtain ⟨hc, ha⟩ := h
    obtain ⟨u, hu, hua, huc, -⟩ := exec_rotate_accumulator (hexec t)
    exact ⟨u, hu, by rw [huc, ha, rotateRing], by rw [hua, hc, ha, rotateRing]⟩
  obtain ⟨t, ht, hc, ha⟩ := execTimes_iterate hstep 9 (p := (s.flag .c, s.a)) ⟨rfl, rfl⟩
  rw [hnine] at hc ha
  exact ⟨t, ht, ha, hc⟩

/-- Settles O43: each row is a rotate of a ring of nine bits, so nine of them are the identity. -/
theorem nineRotatesRestoreByteAndCarry : Obligations.NineRotatesRestoreByteAndCarry := by
  refine ⟨fun i hi => ?acc, fun i hi s ea => ?mem⟩
  case acc =>
    fin_cases hi
    · exact nine_accumulator_rotates (carry := (·.getLsbD 7)) (g := rotateLeft) (fun _ => rfl)
        rotateRing_left_nine
    · exact nine_accumulator_rotates (carry := (·.getLsbD 0)) (g := rotateRight) (fun _ => rfl)
        rotateRing_right_nine
  case mem =>
    rcases List.mem_append.1 (show i ∈ [Instr.rolZp, .rolZpX, .rolAbs, .rolAbsX] ++
        [.rorZp, .rorZpX, .rorAbs, .rorAbsX] from hi) with hrol | hror
    · fin_cases hrol <;>
        exact nine_memory_rotates (carry := (·.getLsbD 7)) (g := rotateLeft) (fun _ => rfl)
          rotateRing_left_nine (by unfold HasRotateMode; decide)
    · fin_cases hror <;>
        exact nine_memory_rotates (carry := (·.getLsbD 0)) (g := rotateRight) (fun _ => rfl)
          rotateRing_right_nine (by unfold HasRotateMode; decide)

end Sys2Proof.Machine
end

section
/-! Addition and subtraction (45_logic_arith.md). -/

namespace Sys2Proof.Machine

/-- What the shared adder leaves in A and in the flags, by its exact sum (R223). -/
theorem addToA_effect (s : State) (m : Byte) :
    (s.addToA m).a.toNat = adderSum s.a m (s.flag .c) % 256 ∧
    (s.addToA m).flag .c = decide (255 < adderSum s.a m (s.flag .c)) ∧
    (s.addToA m).flag .v = adderOverflow s.a m (s.addToA m).a ∧
    (s.addToA m).flag .z = ((s.addToA m).a == 0) ∧
    (s.addToA m).flag .n = (s.addToA m).a.getLsbD 7 :=
  ⟨BitVec.toNat_ofNat _ 8, by simp, by simp, by simp, setZN_flag_n _ _⟩

/-- A row whose meaning is the shared adder on the byte read (R224). -/
theorem readsOperand_adc {i : Instr}
    (hexec : ∀ s, exec i s = outcome (withOperand i.entry s State.addToA)) :
    ReadsOperand i fun s m t =>
      t.a.toNat = (s.a.toNat + m.toNat + (s.flag .c).toNat) % 256 ∧
      t.flag .c = decide (255 < s.a.toNat + m.toNat + (s.flag .c).toNat) ∧
      t.flag .v = ((m ^^^ t.a) &&& (t.a ^^^ s.a) &&& 0x80 != 0) ∧
      t.flag .z = (t.a == 0) ∧ t.flag .n = t.a.getLsbD 7 ∧
      KeepsAllBut [.a] [.c, .v, .z, .n] s t :=
  readsOperand_of hexec
    (fun s m => by
      obtain ⟨ha, hc, hv, hz, hn⟩ := addToA_effect s m
      exact ⟨ha, hc, hv, hz, hn, addToA_keepsAllBut s m⟩)
    fun _ _ => ⟨rfl, rfl⟩

/-- Settles O45: every row of ADC is the shared adder at its own mode. -/
theorem adcAddsWithCarry : Obligations.AdcAddsWithCarry := by
  intro r hr
  fin_cases hr <;> exact ⟨⟨rfl, rfl⟩, readsOperand_adc fun _ => rfl⟩

/-- The complement of a byte, as a number. -/
theorem toNat_xor_ff (m : Byte) : (m ^^^ 0xFF).toNat = 255 - m.toNat := by
  have h : m ^^^ 0xFF = ~~~m := BitVec.xor_allOnes
  rw [h, BitVec.toNat_not]

/-- The adder's sum on the complemented byte is the difference, less the borrow, plus 256 (R225). -/
theorem adderSum_complement (a m : Byte) (c : Bool) :
    (adderSum a (m ^^^ 0xFF) c : Int) = (a.toNat : Int) - m.toNat - (1 - c.toNat) + 256 := by
  have hm : m.toNat < 256 := m.isLt
  rw [adderSum, toNat_xor_ff]
  omega

/-- A row whose meaning is the shared adder on the complement of the byte read (R225). -/
theorem readsOperand_sbc {i : Instr}
    (hexec : ∀ s, exec i s = outcome (withOperand i.entry s fun t m => t.addToA (m ^^^ 0xFF))) :
    ReadsOperand i fun s m t =>
      (t.a.toNat : Int) = ((s.a.toNat : Int) - m.toNat - (1 - (s.flag .c).toNat)) % 256 ∧
      t.flag .c = decide (0 ≤ (s.a.toNat : Int) - m.toNat - (1 - (s.flag .c).toNat)) ∧
      t.flag .v = (((m ^^^ 0xFF) ^^^ t.a) &&& (t.a ^^^ s.a) &&& 0x80 != 0) ∧
      t.flag .z = (t.a == 0) ∧ t.flag .n = t.a.getLsbD 7 ∧
      KeepsAllBut [.a] [.c, .v, .z, .n] s t :=
  readsOperand_of hexec
    (fun s m => by
      obtain ⟨ha, hc, hv, hz, hn⟩ := addToA_effect s (m ^^^ 0xFF)
      have hsum := adderSum_complement s.a m (s.flag .c)
      exact ⟨by omega, hc.trans (decide_eq_decide.2 (by omega)), hv, hz, hn, addToA_keepsAllBut s _⟩)
    fun _ _ => ⟨rfl, rfl⟩

/-- Settles O46: every row of SBC is that adder at its own mode. -/
theorem sbcSubtractsWithBorrow : Obligations.SbcSubtractsWithBorrow := by
  intro r hr
  fin_cases hr <;> exact ⟨⟨rfl, rfl⟩, readsOperand_sbc fun _ => rfl⟩

/-- The mask 0x80 picks the sign bit. -/
theorem and_0x80_ne_zero (v : Byte) : (v &&& 0x80 != 0) = v.msb := by
  revert v
  decide

/-- The overflow formula, by signs: those of both operands differ from the result's. -/
theorem adderOverflow_eq_msb (a m r : Byte) :
    adderOverflow a m r = ((m.msb ^^ r.msb) && (r.msb ^^ a.msb)) := by
  rw [adderOverflow, and_0x80_ne_zero, BitVec.msb_and, BitVec.msb_xor, BitVec.msb_xor]

/-- A byte's sign bit and its two's complement value, by its number. -/
theorem byte_sign (v : Byte) : (v.msb = true ∧ 128 ≤ v.toNat ∧ v.toInt = v.toNat - 256) ∨
    (v.msb = false ∧ v.toNat < 128 ∧ v.toInt = v.toNat) := by
  have hmsb : v.msb = decide (128 ≤ v.toNat) := BitVec.msb_eq_decide v
  have hint := BitVec.toInt_eq_msb_cond v
  by_cases h : 128 ≤ v.toNat <;> simp_all

/-- Settles O47: by the signs of A, of the byte and of the result, the exact sum leaves the range of signed
bytes just when the result's sign is neither operand's. -/
theorem overflowIsSignedOverflow : Obligations.OverflowIsSignedOverflow := by
  intro s m
  obtain ⟨ha, -, hv, -⟩ := addToA_effect s m
  rw [hv, adderOverflow_eq_msb]
  generalize (s.addToA m).a = r at ha
  generalize s.flag .c = c at ha
  have hc := c.toNat_le
  rw [adderSum] at ha
  rcases byte_sign s.a with ⟨hsa, ha1, ha2⟩ | ⟨hsa, ha1, ha2⟩ <;>
    rcases byte_sign m with ⟨hsm, hm1, hm2⟩ | ⟨hsm, hm1, hm2⟩ <;>
    rcases byte_sign r with ⟨hsr, hr1, -⟩ | ⟨hsr, hr1, -⟩
  all_goals
    simp only [hsa, hsm, hsr, ha2, hm2, Bool.xor_self, Bool.xor_false, Bool.xor_true, Bool.not_false,
      Bool.and_self, Bool.and_false, Bool.false_and, Bool.true_eq, Bool.false_eq, decide_eq_true_eq,
      decide_eq_false_iff_not]
    omega

end Sys2Proof.Machine
end

section
/-! Branches, jumps and subroutines (46_control.md), and the stack, flag and system rows
(47_stack_flag_system.md). -/

namespace Sys2Proof.Machine

/-! Branches and jumps. -/

/-- The target of a branch, as a signed sum modulo 65536 (R250). -/
theorem branchTarget_eq_ofInt (pc : Word) (off : Byte) :
    branchTarget pc off = BitVec.ofInt 16 ((pc.toNat : Int) + 1 + off.toInt) := by
  rw [BitVec.ofInt_add, BitVec.ofInt_add, BitVec.ofInt_natCast, BitVec.ofNat_toNat, BitVec.setWidth_eq]
  rfl

theorem exec_branch_error {i : Instr} {f : Flag} {v : Bool} (h : (i, f, v) ∈ branchRows) {s : State}
    (hf : s.flag f = v) {g : Fault} (hoff : s.busRead s.pc = .error g) : exec i s = .fault g := by
  obtain ⟨hexec, -⟩ := branchRow h s
  rw [hexec, beq_iff_eq.2 hf, branch, if_pos rfl, State.operand8, hoff, except_error_bind, outcome_error]

/-- Settles O50: every row is `Branch` on its flag, not taken, taken, or taken to an offset that cannot be
read. -/
theorem branchesTestTheirFlag : Obligations.BranchesTestTheirFlag := by
  rintro ⟨i, code, f, v⟩ hr
  have hrow : (i, f, v) ∈ branchRows ∧ RowAt i code .noneAddressing := by
    fin_cases hr <;> exact ⟨by decide, rfl, rfl⟩
  obtain ⟨hbranch, hat⟩ := hrow
  refine ⟨hat, fun s => ⟨exec_branch_not_taken hbranch, fun hf => ⟨fun off hoff => ?_, fun g hg => ?_⟩⟩⟩
  · rw [exec_branch_taken hbranch hf hoff, branchTarget_eq_ofInt]
    rfl
  · exact exec_branch_error hbranch hf hg

theorem exec_jmpAbs (s : State) :
    exec .jmpAbs s = outcome (s.read16 s.pc >>= fun target => .ok (s.setPc target)) := rfl

theorem exec_jmpInd (s : State) :
    exec .jmpInd s =
      outcome (s.read16 s.pc >>= fun ptr => s.read16 ptr >>= fun target => .ok (s.setPc target)) := rfl

/-- A 16-bit read of two bytes that can be read, as a number. -/
theorem read16_of_bytes {s : State} {addr : Word} {lo hi : Byte} (hlo : s.busRead addr = .ok lo)
    (hhi : s.busRead (addr + 1) = .ok hi) :
    s.read16 addr = .ok (BitVec.ofNat 16 (lo.toNat + 256 * hi.toNat)) :=
  read16_eq_ok.2 ⟨lo, hi, hlo, hhi, (joinBytes_eq_ofNat lo hi).symm⟩

/-- Settles O51: the two rows are one and two 16-bit reads in a chain, which ends at the first error. -/
theorem jumpsSetThePc : Obligations.JumpsSetThePc := by
  refine ⟨⟨rfl, rfl⟩, ⟨rfl, rfl⟩, fun s => ⟨fun f hf => ?_, ?_⟩⟩
  · rw [exec_jmpAbs, exec_jmpInd, hf, except_error_bind, except_error_bind]
    exact ⟨rfl, rfl⟩
  · intro lo hi hlo hhi operand
    have hoperand : s.read16 s.pc = .ok operand := read16_of_bytes hlo hhi
    rw [exec_jmpAbs, exec_jmpInd, hoperand, except_ok_bind, except_ok_bind]
    refine ⟨rfl, fun f hf => ?_, fun lo' hi' hlo' hhi' => ?_⟩
    · rw [hf, except_error_bind, outcome_error]
    · rw [read16_of_bytes hlo' hhi', except_ok_bind, outcome_ok]
      rfl

/-! Subroutines. -/

/-- The state in which JSR reads its operand: the address of its last byte is pushed (R261). -/
def State.jsrPushed (s : State) : State :=
  (s.setRam (Memory.set (Memory.set s.ram (0x100 + s.sp.toNat) (highByte (s.pc + 1)))
    (0x100 + (s.sp - 1).toNat) (lowByte (s.pc + 1)))).setSp (s.sp - 2)

theorem exec_jsr (s : State) :
    exec .jsr s =
      outcome (s.jsrPushed.read16 s.pc >>= fun target => .ok (s.jsrPushed.setPc target)) := by
  have hret : s.pc + 2 - 1 = s.pc + 1 := by ring
  have hsp : s.sp - 1 - 1 = s.sp - 2 := by ring
  show outcome (handleJsr s) = _
  rw [handleJsr, push16_eq, except_ok_bind, hret, hsp]
  rfl

/-- Settles O52: JSR pushes, then reads its operand from the state it pushed in. -/
theorem jsrPushesThenJumps : Obligations.JsrPushesThenJumps := by
  refine ⟨⟨rfl, rfl⟩, ?_⟩
  intro s ret pushed
  have hpushed : s.jsrPushed = pushed := by
    rw [State.jsrPushed, highByte_eq_ofNat, lowByte_eq_ofNat]
    rfl
  rw [exec_jsr, hpushed]
  refine ⟨fun lo hi hlo hhi => ?_, fun f hf => ?_⟩
  · rw [read16_of_bytes hlo hhi, except_ok_bind, outcome_ok]
    rfl
  · rw [hf, except_error_bind, outcome_error]

theorem exec_rts (s : State) :
    exec .rts s = .next ((s.setSp (s.sp + 2)).setPc
      (joinBytes (Memory.get s.ram (0x100 + (s.sp + 1).toNat))
        (Memory.get s.ram (0x100 + (s.sp + 2).toNat)) + 1)) := by
  have hsp : s.sp + 1 + 1 = s.sp + 2 := by ring
  show outcome (handleRts s) = _
  rw [handleRts, pop16_eq, hsp]
  rfl

theorem joinBytes_add_one (lo hi : Byte) :
    joinBytes lo hi + 1 = BitVec.ofNat 16 (lo.toNat + 256 * hi.toNat + 1) := by
  rw [joinBytes_eq_ofNat]
  exact (BitVec.ofNat_add _ 1).symm

/-- Settles O53: RTS pops two bytes of work RAM and goes to the address after the one they make. -/
theorem rtsReturnsAfterThePulledAddress : Obligations.RtsReturnsAfterThePulledAddress := by
  refine ⟨⟨rfl, rfl⟩, fun s => ⟨_, _, busRead_stackAddr s _, busRead_stackAddr s _, ?_⟩⟩
  rw [exec_rts, joinBytes_add_one]
  rfl

/-- The stack bytes at two stack pointers, one less than the other, are different. -/
theorem stack_index_ne (sp : Byte) : 0x100 + sp.toNat ≠ 0x100 + (sp - 1).toNat := by
  have h := toNat_byte_sub_one sp
  omega

/-- After JSR's push the two bytes above the stack pointer are those of the address pushed. -/
theorem jsrPushed_stack {s : State} (hs : MemoryCanonical s) :
    Memory.get s.jsrPushed.ram (0x100 + (s.sp - 1).toNat) = lowByte (s.pc + 1) ∧
      Memory.get s.jsrPushed.ram (0x100 + s.sp.toNat) = highByte (s.pc + 1) := by
  have hinner := Memory.wf_set_stack hs.1 s.sp (highByte (s.pc + 1))
  have houter := Memory.get_set (lo := 0) hinner (0x100 + (s.sp - 1).toNat) (lowByte (s.pc + 1))
  constructor
  · exact (houter _).trans (if_pos rfl)
  · rw [State.jsrPushed, State.setSp_ram, State.setRam_ram, houter, if_neg (stack_index_ne s.sp),
      Memory.get_set (lo := 0) hs.1, if_pos rfl]

/-- States that read the same at a stack address hold the same byte there. -/
theorem stack_get_congr {t u : State} {sp : Byte}
    (h : u.busRead (stackAddr sp) = t.busRead (stackAddr sp)) :
    Memory.get u.ram (0x100 + sp.toNat) = Memory.get t.ram (0x100 + sp.toNat) := by
  rw [busRead_stackAddr, busRead_stackAddr] at h
  exact Except.ok.inj h

/-- Settles O54: the two bytes that RTS pulls are those that JSR pushed. -/
theorem rtsReturnsToAfterTheJsr : Obligations.RtsReturnsToAfterTheJsr := by
  intro s t u hs hjsr hsp hlow hhigh
  rw [exec_jsr, outcome_eq_next] at hjsr
  obtain ⟨target, -, ht⟩ := bind_eq_ok.1 hjsr
  cases ht
  have hsp1 : s.sp - 2 + 1 = s.sp - 1 := by ring
  have hsp2 : s.sp - 2 + 2 = s.sp := by ring
  have hret : s.pc + 1 + 1 = s.pc + 2 := by ring
  have husp : u.sp = s.sp - 2 := hsp
  have hu1 := stack_get_congr (sp := s.sp - 2 + 1) hlow
  have hu2 := stack_get_congr (sp := s.sp - 2 + 2) hhigh
  obtain ⟨hlo, hhi⟩ := jsrPushed_stack hs
  rw [hsp1] at hu1
  rw [hsp2] at hu2
  rw [exec_rts, husp, hsp1, hsp2, hu1.trans hlo, hu2.trans hhi, joinBytes_low_high, hret]
  rfl

/-! The stack. -/

/-- What a push leaves in memory: the byte at the stack pointer's address, and all else as it was. -/
theorem push_memory {s : State} (hs : MemoryCanonical s) (v : Byte) :
    MemoryHolds (stackAddr s.sp) v
        ((s.setRam (Memory.set s.ram (0x100 + s.sp.toNat) v)).setSp (s.sp - 1)) ∧
      MemoryKeptExcept (stackAddr s.sp) s
        ((s.setRam (Memory.set s.ram (0x100 + s.sp.toNat) v)).setSp (s.sp - 1)) := by
  have h := busRead_setRam_set hs (region_stackAddr s.sp) v
  rwa [ramIndex_stackAddr] at h

/-- Settles O55: the pop reads the index that the push stored at. -/
theorem popReturnsTheBytePushed : Obligations.PopReturnsTheBytePushed := by
  intro s v hs
  have hsp : s.sp - 1 + 1 = s.sp := by ring
  obtain ⟨hholds, hkept⟩ := push_memory hs v
  have hbyte : Memory.get (Memory.set s.ram (0x100 + s.sp.toNat) v) (0x100 + s.sp.toNat) = v :=
    (Memory.get_set (lo := 0) hs.1 _ v _).trans (if_pos rfl)
  have hpop := pop_eq ((s.setRam (Memory.set s.ram (0x100 + s.sp.toNat) v)).setSp (s.sp - 1))
  rw [State.setSp_sp, hsp, State.setSp_ram, State.setRam_ram, hbyte] at hpop
  exact ⟨_, _, push_eq s v, hpop, rfl, hholds, hkept, fun _ => rfl⟩

/-- Settles O56: both rows are a push, of A and of P with Break and Break2 set. -/
theorem pushesStoreAtTheStackPointer : Obligations.PushesStoreAtTheStackPointer := by
  refine ⟨⟨rfl, rfl⟩, ⟨rfl, rfl⟩, fun r hr s => ?_⟩
  have hexec : exec r.1 s = outcome (s.push (r.2 s)) := by fin_cases hr <;> rfl
  rw [hexec, push_eq, outcome_ok]
  exact ⟨_, rfl, toNat_byte_sub_one s.sp, by simp [KeepsAllBut], fun hs => push_memory hs _⟩

/-- Settles O57: PLA is a pop into A, and SetZN of the byte follows. -/
theorem plaPullsIntoA : Obligations.PlaPullsIntoA := by
  refine ⟨⟨rfl, rfl⟩, fun s => ?_⟩
  have hframe (v : Byte) : KeepsAllBut [.a, .sp] [.z, .n] s (((s.setSp (s.sp + 1)).setA v).setZN v) :=
    setZN_keepsAllBut (by simp [KeepsAllBut]) v
  refine ⟨_, _, busRead_stackAddr s (s.sp + 1), ?_, rfl, toNat_byte_add_one s.sp, by simp,
    setZN_flag_n _ _, hframe _, memoryKept_of_same rfl rfl⟩
  show outcome (handlePla s) = _
  rw [handlePla, pop_eq]
  rfl

theorem exec_plp (s : State) :
    exec .plp s =
      .next ((s.setSp (s.sp + 1)).setP (pulledStatus (Memory.get s.ram (0x100 + (s.sp + 1).toNat)))) := by
  show outcome (handlePlp s) = _
  rw [handlePlp, pop_eq]
  rfl

theorem exec_rti (s : State) :
    exec .rti s =
      .next (((s.setSp (s.sp + 3)).setP
          (pulledStatus (Memory.get s.ram (0x100 + (s.sp + 1).toNat)))).setPc
        (joinBytes (Memory.get s.ram (0x100 + (s.sp + 2).toNat))
          (Memory.get s.ram (0x100 + (s.sp + 3).toNat)))) := by
  have hsp2 : s.sp + 1 + 1 = s.sp + 2 := by ring
  have hsp3 : s.sp + 2 + 1 = s.sp + 3 := by ring
  show outcome (handleRti s) = _
  simp only [handleRti, pop_eq, pop16_eq, except_ok_bind, State.setP_sp, State.setSp_sp, hsp2, hsp3]
  rfl

/-- Settles O58: PLP pops P, and RTI pops P and then the two bytes of PC. -/
theorem pulledStatusIsNormalised : Obligations.PulledStatusIsNormalised := by
  refine ⟨⟨rfl, rfl⟩, ⟨rfl, rfl⟩, fun s => ⟨_, _, _, busRead_stackAddr s _, busRead_stackAddr s _,
    busRead_stackAddr s _, exec_plp s, ?_⟩⟩
  rw [exec_rti, joinBytes_eq_ofNat]
  rfl

/-! The flag and system rows. -/

/-- A row that writes one flag, by the mask of bits it keeps and the bits it sets. -/
theorem exec_flag_masks {i : Instr} {f : Flag} {b : Bool} {keep set : Byte}
    (hexec : ∀ s, exec i s = .next (s.setFlag f b)) (hmask : ∀ p, putFlag p f b = (p &&& keep) ||| set)
    (s : State) : exec i s = .next { s with p := (s.p &&& keep) ||| set } := by
  rw [hexec, State.setFlag, hmask]

/-- Settles O59: every row writes its flag, whose masks are checked on each byte. -/
theorem flagInstructionsWriteOneBit : Obligations.FlagInstructionsWriteOneBit := by
  intro r hr
  fin_cases hr
  · exact ⟨⟨rfl, rfl⟩, exec_flag_masks (f := .c) (b := false) (fun _ => rfl) (by decide)⟩
  · exact ⟨⟨rfl, rfl⟩, exec_flag_masks (f := .c) (b := true) (fun _ => rfl) (by decide)⟩
  · exact ⟨⟨rfl, rfl⟩, exec_flag_masks (f := .i) (b := false) (fun _ => rfl) (by decide)⟩
  · exact ⟨⟨rfl, rfl⟩, exec_flag_masks (f := .i) (b := true) (fun _ => rfl) (by decide)⟩
  · exact ⟨⟨rfl, rfl⟩, exec_flag_masks (f := .d) (b := false) (fun _ => rfl) (by decide)⟩
  · exact ⟨⟨rfl, rfl⟩, exec_flag_masks (f := .d) (b := true) (fun _ => rfl) (by decide)⟩
  · exact ⟨⟨rfl, rfl⟩, exec_flag_masks (f := .v) (b := false) (fun _ => rfl) (by decide)⟩

/-- Settles O60: both rows' meanings compute. -/
theorem nopDoesNothingAndBrkHalts : Obligations.NopDoesNothingAndBrkHalts :=
  ⟨⟨rfl, rfl⟩, ⟨rfl, rfl⟩, fun _ => ⟨rfl, rfl⟩⟩

end Sys2Proof.Machine
end

section
/-! Reset, launch and load (70_reset_and_hazards.md). -/

namespace Sys2Proof.Machine

/-! Reset. -/

/-- The state that `reset()` gives (R350 to R352). -/
def State.afterReset (s : State) : State :=
  { s with
    a := 0x00
    x := 0x00
    y := 0x00
    sp := 0xFD
    p := 0x22
    pc := resetVector s.params.prgSize s.params.prg
    rs := .running }

/-- The P of reset is 0x22: Break 0 and Break2 1. -/
theorem statusBitsFixed_afterReset (s : State) : StatusBitsFixed s.afterReset := by
  show getFlag 0x22 .b = false ∧ getFlag 0x22 .b2 = true
  decide

theorem doReset_eq {s : State} (h : s.rs = .running ∨ s.rs = .halted) : s.doReset = .ok s.afterReset := by
  rcases h with h | h <;> rw [State.doReset, h] <;> rfl

/-- The vector is the 16-bit value at 0xFFFC, which lies in PRG-ROM (R351). -/
theorem read16_resetVector (s : State) :
    s.read16 0xFFFC = .ok (resetVector s.params.prgSize s.params.prg) :=
  read16_eq_ok.2 ⟨_, _, busRead_prg (addr := 0xFFFC) rfl s, busRead_prg (addr := 0xFFFC + 1) rfl s, rfl⟩

/-- Settles O31: from Running and Halted the state is `State.afterReset`; the machine right after reset is its
own. -/
theorem resetGivesTheStatedValues : Obligations.ResetGivesTheStatedValues :=
  ⟨fun s h => ⟨s.afterReset, doReset_eq h, rfl, rfl, rfl, rfl, rfl, rfl, read16_resetVector s, rfl, rfl⟩,
    fun _ _ h => doReset_faulted h, rfl⟩

/-! Launch. -/

theorem prgSizeOf_prgBytes (size : PrgSize) : prgSizeOf (prgBytes size) = some size := by
  cases size <;> rfl

theorem exists_prgBytes {n : Nat} (h : n = 0x4000 ∨ n = 0x8000) : ∃ size, n = prgBytes size :=
  h.elim (fun h => ⟨.k16, h⟩) fun h => ⟨.k32, h⟩

theorem eq_k16_of_prgBytes {size : PrgSize} (h : prgBytes size = 0x4000) : size = .k16 := by
  cases size with
  | k16 => rfl
  | k32 => cases h

/-- The state that a launch gives (R353). -/
def launchState (size : PrgSize) (prg ram : List Byte) (params : Params)
    (obs : List (List (Word × Byte))) : State :=
  State.afterReset
    { State.reset with
      ram := Memory.ofBytes 0 ram
      params := { params with prgSize := size, prg := Memory.ofBytes 0 prg }
      observer := obs }

theorem launch_eq {size : PrgSize} {prg ram : List Byte} (hprg : prg.length = prgBytes size)
    (hram : ram.length = ramBytes) (params : Params) (obs : List (List (Word × Byte))) :
    launch prg 0 ram params obs = .ok (launchState size prg ram params obs) := by
  have hsize : prgSizeOf prg.length = some size := by rw [hprg, prgSizeOf_prgBytes]
  simp only [launch, hsize, hram, ne_eq, not_true_eq_false, if_false]
  exact doReset_eq (.inl rfl)

/-- The store of a byte list holds at an index the byte there. -/
theorem get_ofBytes_zero (bs : List Byte) (i : Nat) : (Memory.ofBytes 0 bs).get i = bs.getD i 0 := by
  have h := Memory.get_ofBytes bs 0 i
  rwa [Nat.zero_add] at h

/-- A number below 65536 is an address that has that number. -/
theorem toNat_address {n : Nat} (h : n < 0x10000) : (BitVec.ofNat 16 n).toNat = n := by
  rw [BitVec.toNat_ofNat]
  omega

theorem prgBytes_le (size : PrgSize) : prgBytes size ≤ 0x8000 := by
  cases size with
  | k16 => show 0x4000 ≤ 0x8000; omega
  | k32 => exact Nat.le_refl 0x8000

/-- A byte of the image from 0x8000 on (20_memory.md R56). -/
theorem prgRead_from_8000 {size : PrgSize} {k : Nat} (hk : k < prgBytes size) (prg : Memory) :
    prgRead size prg (BitVec.ofNat 16 (0x8000 + k)) = prg.get k := by
  have hk' : k < 0x8000 := lt_of_lt_of_le hk (prgBytes_le size)
  have hindex : prgIndex size (BitVec.ofNat 16 (0x8000 + k)) = k := by
    have haddr : (BitVec.ofNat 16 (0x8000 + k)).toNat - 0x8000 = k := by
      rw [toNat_address (by omega)]
      omega
    cases size with
    | k16 => exact (congrArg (· % 0x4000) haddr).trans (Nat.mod_eq_of_lt hk)
    | k32 => exact haddr
  rw [prgRead, hindex]

/-- A byte of a 16 KiB image from 0xC000 on, where the image is read again (R56). -/
theorem prgRead_from_C000 {k : Nat} (hk : k < 0x4000) (prg : Memory) :
    prgRead .k16 prg (BitVec.ofNat 16 (0xC000 + k)) = prg.get k := by
  have hindex : prgIndex .k16 (BitVec.ofNat 16 (0xC000 + k)) = k := by
    show ((BitVec.ofNat 16 (0xC000 + k)).toNat - 0x8000) % 0x4000 = k
    rw [toNat_address (by omega)]
    omega
  rw [prgRead, hindex]

theorem prgIndex_vector (size : PrgSize) :
    prgIndex size 0xFFFC = prgBytes size - 4 ∧ prgIndex size 0xFFFD = prgBytes size - 3 := by
  cases size <;> exact ⟨rfl, rfl⟩

theorem region_address_prg {n : Nat} (hlo : 0x8000 ≤ n) (hhi : n < 0x10000) :
    region (BitVec.ofNat 16 n) = .prg := by
  rwa [region_eq_prg, InPrgWindow, toNat_address hhi]

theorem region_address_ram {n : Nat} (h : n < 0x2000) : region (BitVec.ofNat 16 n) = .ram := by
  rw [region_eq_ram, toNat_address (by omega)]
  omega

/-- Settles O32: a launch is accepted just when its three checks hold, and is then `launchState`, whose
memories are the listings of the images. -/
theorem launchAcceptsMapperZeroImages : Obligations.LaunchAcceptsMapperZeroImages := by
  intro prg ram mapper params obs
  refine ⟨fun h1 h2 => ?length, fun hprg hmapper => ?mapper, fun hprg hram => ?ram,
    fun hprg hram => ?accepted⟩
  case length => simp [launch, prgSizeOf, h1, h2]
  case mapper =>
    obtain ⟨size, hsize⟩ := exists_prgBytes hprg
    simp only [launch, hsize, prgSizeOf_prgBytes, if_pos hmapper]
  case ram =>
    obtain ⟨size, hsize⟩ := exists_prgBytes hprg
    have hram' : ram.length ≠ ramBytes := hram
    simp only [launch, hsize, prgSizeOf_prgBytes, ne_eq, not_true_eq_false, if_false, if_pos hram']
  case accepted =>
    obtain ⟨size, hsize⟩ := exists_prgBytes hprg
    obtain ⟨hlow, hhigh⟩ := prgIndex_vector size
    refine ⟨_, launch_eq hsize hram params obs, ⟨statusBitsFixed_afterReset _, ?_, ?_⟩, rfl, rfl, rfl, rfl,
      rfl, rfl, rfl, ?_, rfl, rfl, rfl, rfl, fun k hk => ?_, fun k hk => ?_, fun h16 k hk => ?_⟩
    · exact Memory.wfFrom_ofBytes ram 0 _ (by rw [hram]; decide)
    · exact Memory.wfFrom_ofBytes prg 0 _ (by rw [hsize, Nat.zero_add]; rfl)
    · show joinBytes (Memory.get _ (prgIndex size 0xFFFC)) (Memory.get _ (prgIndex size 0xFFFD)) = _
      rw [joinBytes_eq_ofNat, hlow, hhigh, get_ofBytes_zero, get_ofBytes_zero, hsize]
    · rw [busRead_ram (region_address_ram (by omega)), ramIndex_eq_mod, toNat_address (by omega),
        Nat.mod_eq_of_lt hk]
      exact congrArg Except.ok (get_ofBytes_zero ram k)
    · rw [busRead_prg (region_address_prg (by omega) (by omega))]
      exact congrArg Except.ok ((prgRead_from_8000 (hsize ▸ hk) _).trans (get_ofBytes_zero prg k))
    · obtain rfl := eq_k16_of_prgBytes (hsize.symm.trans h16)
      rw [busRead_prg (region_address_prg (by omega) (by omega))]
      exact congrArg Except.ok ((prgRead_from_C000 (h16 ▸ hk) _).trans (get_ofBytes_zero prg k))

end Sys2Proof.Machine
end

section
/-! Load (70_reset_and_hazards.md R354, R355). -/

namespace Sys2Proof.Machine

/-! Where a program's bytes fall. -/

/-- An address, counted from 0 without wrapping, falls in 0x2000 to 0x7FFF, which has no storage. -/
def Unstored (n : Nat) : Prop := 0x2000 ≤ n % 65536 ∧ n % 65536 ≤ 0x7FFF

theorem hasStorage_eq_false_iff {n : Nat} : hasStorage (BitVec.ofNat 16 n) = false ↔ Unstored n := by
  have hn : (BitVec.ofNat 16 n).toNat = n % 65536 := BitVec.toNat_ofNat n 16
  simp only [hasStorage, Bool.or_eq_false_iff, beq_eq_false_iff_ne, ne_eq, region_eq_ram, region_eq_prg,
    InPrgWindow, hn, Unstored]
  omega

/-- The address after the one counted `n` is the one counted `n + 1`. -/
theorem address_add_one (n : Nat) : BitVec.ofNat 16 n + 1 = BitVec.ofNat 16 (n + 1) :=
  (BitVec.ofNat_add n 1).symm

theorem add_succ_address (base k : Nat) : base + 1 + k = base + (k + 1) := by omega

/-- The search for a byte without storage finds none, or the first. -/
theorem firstUnstored_cases (base n : Nat) :
    ((∀ k, k < n → ¬ Unstored (base + k)) ∧ firstUnstored (BitVec.ofNat 16 base) n = none) ∨
      ∃ k, k < n ∧ Unstored (base + k) ∧
        firstUnstored (BitVec.ofNat 16 base) n = some (BitVec.ofNat 16 (base + k)) := by
  induction n generalizing base with
  | zero => exact .inl ⟨fun k hk => absurd hk (Nat.not_lt_zero k), rfl⟩
  | succ n ih =>
    cases hfirst : hasStorage (BitVec.ofNat 16 base) with
    | false =>
      exact .inr ⟨0, Nat.succ_pos n, hasStorage_eq_false_iff.1 hfirst, by simp [firstUnstored, hfirst]⟩
    | true =>
      have hbase : ¬ Unstored base := fun h => by
        rw [hasStorage_eq_false_iff.2 h] at hfirst
        cases hfirst
      rw [firstUnstored, hfirst, if_pos rfl, address_add_one]
      rcases ih (base + 1) with ⟨hstored, hnone⟩ | ⟨k, hk, hun, hsome⟩
      · refine .inl ⟨fun k hk => ?_, hnone⟩
        cases k with
        | zero => exact hbase
        | succ k => exact add_succ_address base k ▸ hstored k (by omega)
      · rw [add_succ_address] at hun hsome
        exact .inr ⟨k + 1, by omega, hun, hsome⟩

/-! Reading a program back. -/

/-- Two addresses name one byte of storage: of work RAM, or of the image. -/
def SameStorage (size : PrgSize) (addr addr' : Word) : Prop :=
  (region addr = .ram ∧ region addr' = .ram ∧ ramIndex addr = ramIndex addr') ∨
    (region addr = .prg ∧ region addr' = .prg ∧ prgIndex size addr = prgIndex size addr')

theorem placeByte_ram {addr : Word} (h : region addr = .ram) (s : State) (v : Byte) :
    s.placeByte addr v = s.setRam (Memory.set s.ram (ramIndex addr) v) := by
  simp only [State.placeByte, h]

theorem placeByte_prg {addr : Word} (h : region addr = .prg) (s : State) (v : Byte) :
    s.placeByte addr v = { s with params := { s.params with
      prg := Memory.set s.params.prg (prgIndex s.params.prgSize addr) v } } := by
  simp only [State.placeByte, h]

theorem placeByte_no_storage {addr : Word} (hram : region addr ≠ .ram) (hprg : region addr ≠ .prg)
    (s : State) (v : Byte) : s.placeByte addr v = s := by
  cases h : region addr <;> simp_all [State.placeByte]

/-- A byte placed is read at every address that names its storage. -/
theorem busRead_placeByte_same {s : State} (hs : MemoryCanonical s) {addr addr' : Word}
    (h : SameStorage s.params.prgSize addr addr') (v : Byte) :
    (s.placeByte addr v).busRead addr' = .ok v := by
  rcases h with ⟨h1, h2, h3⟩ | ⟨h1, h2, h3⟩
  · rw [placeByte_ram h1, busRead_ram h2, State.setRam_ram, Memory.get_set (lo := 0) hs.1, if_pos h3.symm]
  · rw [placeByte_prg h1, busRead_prg h2, prgRead, Memory.get_set (lo := 0) hs.2, if_pos h3.symm]

/-- A byte placed leaves every other byte. -/
theorem busRead_placeByte_other {s : State} (hs : MemoryCanonical s) {addr addr' : Word}
    (h : ¬ SameStorage s.params.prgSize addr addr') (v : Byte) :
    (s.placeByte addr v).busRead addr' = s.busRead addr' := by
  by_cases hram : region addr = .ram
  · rw [placeByte_ram hram]
    refine (busRead_setRam_set hs hram v).2 addr' (Bool.eq_false_of_not_eq_true fun hsame => h ?_)
    simp only [sameRamByte, Bool.and_eq_true, beq_iff_eq] at hsame
    exact .inl ⟨hram, hsame.1.2, hsame.2⟩
  · by_cases hprg : region addr = .prg
    · rw [placeByte_prg hprg]
      cases h' : region addr'
      case prg =>
        have hne : prgIndex s.params.prgSize addr' ≠ prgIndex s.params.prgSize addr :=
          fun heq => h (.inr ⟨hprg, h', heq.symm⟩)
        rw [busRead_prg h', busRead_prg h', prgRead, Memory.get_set (lo := 0) hs.2, if_neg hne, prgRead]
      case ram => rw [busRead_ram h', busRead_ram h']
      case video => rw [busRead_video h', busRead_video h']
      case unmapped => rw [busRead_unmapped h', busRead_unmapped h']
    · rw [placeByte_no_storage hram hprg]

/-- Bytes placed from an address on leave every byte that none of them names. -/
theorem busRead_placeBytes_other {vs : List Byte} {s : State} (hs : MemoryCanonical s) {base : Nat}
    {addr' : Word}
    (h : ∀ k, k < vs.length → ¬ SameStorage s.params.prgSize (BitVec.ofNat 16 (base + k)) addr') :
    (s.placeBytes (BitVec.ofNat 16 base) vs).busRead addr' = s.busRead addr' := by
  induction vs generalizing s base with
  | nil => rfl
  | cons v vs ih =>
    obtain ⟨hcanonical, hsize, -⟩ := placeByte_canonical hs (BitVec.ofNat 16 base) v
    have hfirst := busRead_placeByte_other hs (h 0 (Nat.succ_pos _)) v
    rw [State.placeBytes, address_add_one, ih hcanonical fun k hk => ?_]
    · exact hfirst
    · rw [hsize, add_succ_address]
      exact h (k + 1) (Nat.succ_lt_succ hk)

theorem sameStorage_self (size : PrgSize) {n : Nat} (h : ¬ Unstored n) :
    SameStorage size (BitVec.ofNat 16 n) (BitVec.ofNat 16 n) := by
  have hstored : hasStorage (BitVec.ofNat 16 n) = true :=
    Bool.eq_true_of_not_eq_false (mt hasStorage_eq_false_iff.1 h)
  simp only [hasStorage, Bool.or_eq_true, beq_iff_eq] at hstored
  exact hstored.imp (fun h => ⟨h, h, rfl⟩) fun h => ⟨h, h, rfl⟩

/-- Bytes placed in storage read back, if none is placed where one before it lies. -/
theorem busRead_placeBytes {vs : List Byte} {s : State} (hs : MemoryCanonical s) {base : Nat}
    (hstored : ∀ k, k < vs.length → ¬ Unstored (base + k))
    (hdistinct : ∀ j k, j < k → k < vs.length →
      ¬ SameStorage s.params.prgSize (BitVec.ofNat 16 (base + k)) (BitVec.ofNat 16 (base + j)))
    {k : Nat} (hk : k < vs.length) :
    (s.placeBytes (BitVec.ofNat 16 base) vs).busRead (BitVec.ofNat 16 (base + k)) = .ok (vs.getD k 0) := by
  induction vs generalizing s base k with
  | nil => exact absurd hk (Nat.not_lt_zero k)
  | cons v vs ih =>
    obtain ⟨hcanonical, hsize, -⟩ := placeByte_canonical hs (BitVec.ofNat 16 base) v
    rw [State.placeBytes, address_add_one]
    cases k with
    | zero =>
      rw [busRead_placeBytes_other hcanonical fun k hk => ?_]
      · exact busRead_placeByte_same hs (sameStorage_self _ (hstored 0 hk)) v
      · rw [hsize, add_succ_address]
        exact hdistinct 0 (k + 1) (Nat.succ_pos k) (Nat.succ_lt_succ hk)
    | succ k =>
      have hrest := ih hcanonical (base := base + 1) (k := k)
        (fun j hj => add_succ_address base j ▸ hstored (j + 1) (Nat.succ_lt_succ hj))
        (fun j l hjl hl => by
          rw [hsize, add_succ_address, add_succ_address]
          exact hdistinct (j + 1) (l + 1) (Nat.succ_lt_succ hjl) (Nat.succ_lt_succ hl))
        (Nat.lt_of_succ_lt_succ hk)
      rw [add_succ_address] at hrest
      exact hrest

/-- Addresses that name one byte of storage agree modulo the size of work RAM, or of the smaller image. -/
theorem sameStorage_mod {size : PrgSize} {n m : Nat} (hn : n < 0x10000) (hm : m < 0x10000)
    (h : SameStorage size (BitVec.ofNat 16 n) (BitVec.ofNat 16 m)) :
    (n ≤ 0x1FFF ∧ m ≤ 0x1FFF ∧ n % 0x800 = m % 0x800) ∨
      (0x8000 ≤ n ∧ 0x8000 ≤ m ∧ n % 0x4000 = m % 0x4000) := by
  rcases h with ⟨h1, h2, h3⟩ | ⟨h1, h2, h3⟩
  · rw [region_eq_ram, toNat_address hn] at h1
    rw [region_eq_ram, toNat_address hm] at h2
    rw [ramIndex_eq_mod, ramIndex_eq_mod, toNat_address hn, toNat_address hm] at h3
    exact .inl ⟨h1, h2, h3⟩
  · rw [region_eq_prg, InPrgWindow, toNat_address hn] at h1
    rw [region_eq_prg, InPrgWindow, toNat_address hm] at h2
    refine .inr ⟨h1, h2, ?_⟩
    cases size with
    | k16 =>
      have hindex : ((BitVec.ofNat 16 n).toNat - 0x8000) % 0x4000 =
          ((BitVec.ofNat 16 m).toNat - 0x8000) % 0x4000 := h3
      rw [toNat_address hn, toNat_address hm] at hindex
      omega
    | k32 =>
      have hindex : (BitVec.ofNat 16 n).toNat - 0x8000 = (BitVec.ofNat 16 m).toNat - 0x8000 := h3
      rw [toNat_address hn, toNat_address hm] at hindex
      omega

/-! Load. -/

/-- A program fits in work RAM, or in PRG-ROM from 0xC000 up to the vector. -/
def Fits (base n : Nat) : Prop :=
  base + n ≤ 0x2000 ∧ n ≤ 0x800 ∨ 0xC000 ≤ base ∧ base + n ≤ 0xFFFC

theorem Fits.distinct {base n : Nat} (h : Fits base n) (size : PrgSize) (j k : Nat) (hjk : j < k)
    (hk : k < n) : ¬ SameStorage size (BitVec.ofNat 16 (base + k)) (BitVec.ofNat 16 (base + j)) := by
  intro hsame
  rcases h with h | h <;> rcases sameStorage_mod (by omega) (by omega) hsame with h' | h' <;> omega

theorem Fits.not_vector {base n : Nat} (h : Fits base n) (size : PrgSize) {k : Nat} (hk : k < n) (j : Nat)
    (hj : j < 2) : ¬ SameStorage size (BitVec.ofNat 16 (0xFFFC + j)) (BitVec.ofNat 16 (base + k)) := by
  intro hsame
  rcases h with h | h <;> rcases sameStorage_mod (by omega) (by omega) hsame with h' | h' <;> omega

/-- The two bytes of the vector are stored, in different bytes of the image. -/
theorem vector_stored {k : Nat} (hk : k < 2) : ¬ Unstored (0xFFFC + k) := by
  simp only [Unstored]
  omega

theorem vector_distinct (size : PrgSize) (j k : Nat) (hjk : j < k) (hk : k < 2) :
    ¬ SameStorage size (BitVec.ofNat 16 (0xFFFC + k)) (BitVec.ofNat 16 (0xFFFC + j)) := by
  intro hsame
  rcases sameStorage_mod (by omega) (by omega) hsame with h' | h' <;> omega

/-- The state after a load: the program's bytes, then the vector's (log 12). -/
def State.loaded (s : State) (program : List Byte) : State :=
  (s.placeBytes s.params.loadAddr program).placeBytes 0xFFFC
    [lowByte s.params.loadAddr, highByte s.params.loadAddr]

theorem address_loadAddr (s : State) : BitVec.ofNat 16 s.params.loadAddr.toNat = s.params.loadAddr := by
  rw [BitVec.ofNat_toNat, BitVec.setWidth_eq]

section Loaded

variable {s : State} (hs : MemoryCanonical s) (program : List Byte)
include hs

theorem loaded_canonical : MemoryCanonical (s.loaded program) :=
  (placeBytes_canonical _ (placeBytes_canonical program hs s.params.loadAddr).1 0xFFFC).1

/-- After a load the vector is the load address. -/
theorem loaded_vector :
    resetVector (s.loaded program).params.prgSize (s.loaded program).params.prg = s.params.loadAddr := by
  have hread {k : Nat} (hk : k < 2) := busRead_placeBytes
    (placeBytes_canonical program hs s.params.loadAddr).1 (base := 0xFFFC)
    (vs := [lowByte s.params.loadAddr, highByte s.params.loadAddr])
    (fun _ hk => vector_stored hk) (fun j k hjk hk => vector_distinct _ j k hjk hk) hk
  have hvector : (s.loaded program).read16 0xFFFC = .ok s.params.loadAddr :=
    read16_eq_ok.2 ⟨_, _, hread (k := 0) (by omega), hread (k := 1) (by omega),
      (joinBytes_low_high _).symm⟩
  exact Except.ok.inj ((read16_resetVector _).symm.trans hvector)

/-- A program that fits reads back after a load. -/
theorem loaded_reads (hstored : ∀ k, k < program.length → ¬ Unstored (s.params.loadAddr.toNat + k))
    (hfits : Fits s.params.loadAddr.toNat program.length) {k : Nat} (hk : k < program.length) :
    (s.loaded program).busRead (BitVec.ofNat 16 (s.params.loadAddr.toNat + k)) =
      .ok (program.getD k 0) := by
  have hplaced := busRead_placeBytes hs hstored (hfits.distinct _) hk
  rw [address_loadAddr] at hplaced
  exact (busRead_placeBytes_other (placeBytes_canonical program hs s.params.loadAddr).1 (base := 0xFFFC)
    (vs := [lowByte s.params.loadAddr, highByte s.params.loadAddr])
    fun j hj => hfits.not_vector _ hk j hj).trans hplaced

end Loaded

/-- Settles O33: the load places the program and the vector if its search finds no byte without storage, and
else is refused with the byte found; from Running and Halted the reset then takes PC from the vector. -/
theorem loadThenResetStartsTheProgram : Obligations.LoadThenResetStartsTheProgram := by
  intro program s hs base unstored
  have hsearch := firstUnstored_cases base program.length
  rw [address_loadAddr] at hsearch
  refine ⟨fun hstored => ?_, fun ⟨j, hj, hun⟩ => ?_⟩
  · rcases hsearch with ⟨-, hnone⟩ | ⟨k, hk, hun, -⟩
    · have hload : load program s = .ok (s.loaded program) := by rw [load, hnone]; rfl
      have hrs : (s.loaded program).rs = s.rs := by simp [State.loaded]
      refine ⟨_, hload, hrs, loaded_canonical hs program,
        fun hfits k hk => loaded_reads hs program hstored hfits hk, fun hrun => ?_, fun f hf fuel => ?_⟩
      · have hreset := doReset_eq (hrs ▸ hrun)
        refine ⟨_, hreset, loaded_vector hs program, rfl, fun fuel => ?_⟩
        simp only [loadAndRun, hload, hreset, bind, Except.bind]
      · have hreset := doReset_faulted (hrs.trans hf)
        simp only [loadAndRun, hload, hreset, bind, Except.bind]
    · exact absurd hun (hstored k hk)
  · rcases hsearch with ⟨hstored, -⟩ | ⟨k, hk, hun, hsome⟩
    · exact absurd hun (hstored j hj)
    · have hload : load program s = .error (.loadRange (BitVec.ofNat 16 (base + k))) := by rw [load, hsome]
      exact ⟨k, hk, hun, hload, fun fuel => by rw [loadAndRun, hload]; rfl⟩

end Sys2Proof.Machine
end
